-- ==== Sys2Proof/Word.lean ====
section
/-! DEFINITION. The word types of the block. -/

namespace Sys2Proof

/-- A byte: every register of the bank and every byte of a memory region (00_scope.md R9). -/
abbrev Byte := BitVec 8

/-- A bus address (20_memory.md R60). -/
abbrev Addr := BitVec 16

/-- A command word of the host port: `op` in bits 18:16, `addr` in bits 15:0 (30_encoding.md R81). -/
abbrev CommandWord := BitVec 19

/-- A shade, 0 lightest to 3 darkest (10_state.md R44). -/
abbrev Shade := BitVec 2

end Sys2Proof
end

