-- ==== Sys2Proof/Config.lean ====
section
/-! DEFINITION. The fixed parameters of 00_scope.md R7. No value of this hardware is left open, so
there is no free value here (notes/assumptions/14.md). `ADV_WIDTH` (R8) does not occur: the argument
of ADV is an unbounded natural number. `SINK` (R8) is the output list `State.frameOut`. -/

namespace Sys2Proof.Config

/-- `QUANTUM`: cycles consumed by one scheduler step. -/
@[simp] abbrev quantumCycles : Nat := 4

/-- `LINE_CYCLES`. -/
@[simp] abbrev lineCycles : Nat := 456

/-- `FRAME_CYCLES`. -/
@[simp] abbrev frameCycles : Nat := 70224

/-- `FRAME_LINES`. -/
@[simp] abbrev frameLines : Nat := 154

/-- `VISIBLE_LINES`, also the first line of vertical blank. -/
@[simp] abbrev visibleLines : Nat := 144

/-- `MODE3_OFFSET`. -/
@[simp] abbrev mode3Offset : Nat := 80

/-- `MODE0_OFFSET`. -/
@[simp] abbrev mode0Offset : Nat := 252

/-- `SCREEN_W`. -/
@[simp] abbrev screenW : Nat := 160

/-- `SCREEN_H`. -/
@[simp] abbrev screenH : Nat := 144

/-- `VRAM_SIZE`. -/
@[simp] abbrev vramSize : Nat := 8192

/-- `OAM_SIZE`. -/
@[simp] abbrev oamSize : Nat := 160

/-- `MAP_W`: entries of one tile map row, and tile slots of one line. -/
@[simp] abbrev mapW : Nat := 32

/-- `TILE_W`. -/
@[simp] abbrev tileW : Nat := 8

/-- `TILE_H`. -/
@[simp] abbrev tileH : Nat := 8

/-- `TILE_BYTES`. -/
@[simp] abbrev tileBytes : Nat := 16

/-- `WIN_X_OFFSET`. -/
@[simp] abbrev winXOffset : Nat := 7

/-- `SHADES`: how many colour indices a 2-bit index can name. -/
@[simp] abbrev shades : Nat := 4

/-- `VRAM_BASE` (92_eei_decisions.md D2). -/
@[simp] abbrev vramBase : Nat := 0x8000

/-- `OAM_BASE` (92_eei_decisions.md D2). -/
@[simp] abbrev oamBase : Nat := 0xFE00

end Sys2Proof.Config
end

