-- ==== Sys2Proof/Syntax.lean ====
section
/-! DEFINITION. The host's transactions: what the port carries, and one constructor per mnemonic of
spec/opcode_table.json. The block has no instruction set of its own; an "instruction" is one decoded
transaction (30_encoding.md R80). -/

namespace Sys2Proof

/-- What the host presents at the port: a command word and, beside it, the operand lines `data` (WR)
and `n` (ADV). A command reads only the line its `op` calls for (30_encoding.md R81, R89). -/
structure Transaction where
  cw : CommandWord
  data : Byte
  n : Nat
  deriving DecidableEq, Repr

/-- Direction of a bus access (60_exceptions.md R250). -/
inductive Dir where
  | read
  | write
  deriving DecidableEq, Repr

/-- The registers that have a bus address (10_state.md R22). -/
inductive BusReg where
  | lcdc
  | stat
  | scy
  | scx
  | ly
  | lyc
  | bgp
  | obp0
  | obp1
  | wy
  | wx
  deriving DecidableEq, Repr

/-- The transactions. The two table rows of RD_OAM (and of WR_OAM) select one rule and are one
constructor (30_encoding.md R83). -/
inductive Instr where
  | rdVram (offset : BitVec 13)
  | wrVram (offset : BitVec 13) (data : Byte)
  | rdOam (offset : Byte)
  | wrOam (offset : Byte) (data : Byte)
  | rdLcdc
  | wrLcdc (data : Byte)
  | rdStat
  | wrStat (data : Byte)
  | rdScy
  | wrScy (data : Byte)
  | rdScx
  | wrScx (data : Byte)
  | rdLy
  | wrLy (data : Byte)
  | rdLyc
  | wrLyc (data : Byte)
  | rdBgp
  | wrBgp (data : Byte)
  | rdObp0
  | wrObp0 (data : Byte)
  | rdObp1
  | wrObp1 (data : Byte)
  | rdWy
  | wrWy (data : Byte)
  | rdWx
  | wrWx (data : Byte)
  | rdUnmapped (addr : Addr)
  | wrUnmapped (addr : Addr) (data : Byte)
  | adv (n : Nat)
  | poll
  | takeev
  | reset
  | reserved (op : BitVec 3)
  deriving DecidableEq, Repr

end Sys2Proof
end

