-- ==== Sys2Proof/WellFormed.lean ====
section
/-! DEFINITION. Which terms of `Instr` stand for a transaction: the bounds that the types of the
fields do not already say. -/

namespace Sys2Proof

/-- The mapped addresses of 20_memory.md R62. -/
def mapped (a : Addr) : Bool :=
  (decide (Config.vramBase ≤ a.toNat) && decide (a.toNat < Config.vramBase + Config.vramSize)) ||
  (decide (Config.oamBase ≤ a.toNat) && decide (a.toNat < Config.oamBase + Config.oamSize)) ||
  (decide (0xFF40 ≤ a.toNat) && decide (a.toNat ≤ 0xFF4B) && !decide (a.toNat = 0xFF46))

/-- An OAM offset lies in the 160 bytes of OAM (10_state.md R43). -/
def wfOamOffset (offset : Byte) : Bool := decide (offset.toNat < Config.oamSize)

/-- The unmapped rows are for addresses that no other row matches (40_register_bank.md R126). -/
def wfUnmapped (a : Addr) : Bool := !mapped a

/-- The reserved command codes are 0b110 and 0b111 (30_encoding.md R86). -/
def wfReserved (op : BitVec 3) : Bool := decide (6 ≤ op.toNat)

/-- A well-formed transaction. -/
def Instr.wf : Instr → Bool
  | .rdVram _ => true
  | .wrVram _ _ => true
  | .rdOam offset => wfOamOffset offset
  | .wrOam offset _ => wfOamOffset offset
  | .rdLcdc => true
  | .wrLcdc _ => true
  | .rdStat => true
  | .wrStat _ => true
  | .rdScy => true
  | .wrScy _ => true
  | .rdScx => true
  | .wrScx _ => true
  | .rdLy => true
  | .wrLy _ => true
  | .rdLyc => true
  | .wrLyc _ => true
  | .rdBgp => true
  | .wrBgp _ => true
  | .rdObp0 => true
  | .wrObp0 _ => true
  | .rdObp1 => true
  | .wrObp1 _ => true
  | .rdWy => true
  | .wrWy _ => true
  | .rdWx => true
  | .wrWx _ => true
  | .rdUnmapped addr => wfUnmapped addr
  | .wrUnmapped addr _ => wfUnmapped addr
  | .adv _ => true
  | .poll => true
  | .takeev => true
  | .reset => true
  | .reserved op => wfReserved op

end Sys2Proof
end

