-- ==== Sys2Proof/Decode.lean ====
section
/-! DEFINITION. The decoder of the host port (30_encoding.md R81 to R89), total on every command
word, and the encoder written from the same tables. -/

namespace Sys2Proof

/-! ### Fields of the command word (30_encoding.md R81) -/

/-- `op`, bits 18:16. -/
def opField (cw : CommandWord) : BitVec 3 := cw.extractLsb' 16 3

/-- `addr`, bits 15:0. -/
def addrField (cw : CommandWord) : Addr := cw.extractLsb' 0 16

/-- A command word from its two fields. -/
def commandWord (op : BitVec 3) (addr : Addr) : CommandWord := op ++ addr

/-! ### The address map (20_memory.md R62) -/

/-- Bus address of a register (10_state.md R22). -/
def BusReg.address : BusReg → Addr
  | .lcdc => 0xFF40
  | .stat => 0xFF41
  | .scy => 0xFF42
  | .scx => 0xFF43
  | .ly => 0xFF44
  | .lyc => 0xFF45
  | .bgp => 0xFF47
  | .obp0 => 0xFF48
  | .obp1 => 0xFF49
  | .wy => 0xFF4A
  | .wx => 0xFF4B

/-- The register at a bus address, if there is one. -/
def registerAt (a : Addr) : Option BusReg :=
  if a = 0xFF40 then some .lcdc
  else if a = 0xFF41 then some .stat
  else if a = 0xFF42 then some .scy
  else if a = 0xFF43 then some .scx
  else if a = 0xFF44 then some .ly
  else if a = 0xFF45 then some .lyc
  else if a = 0xFF47 then some .bgp
  else if a = 0xFF48 then some .obp0
  else if a = 0xFF49 then some .obp1
  else if a = 0xFF4A then some .wy
  else if a = 0xFF4B then some .wx
  else none

/-- What a bus address selects: 30_encoding.md R83. -/
inductive BusTarget where
  | vram (offset : BitVec 13)
  | oam (offset : Byte)
  | register (r : BusReg)
  | unmapped
  deriving DecidableEq, Repr

/-- The address decode shared by RD and WR (30_encoding.md R83). -/
def busTarget (a : Addr) : BusTarget :=
  if Config.vramBase ≤ a.toNat ∧ a.toNat < Config.vramBase + Config.vramSize then
    .vram (BitVec.ofNat 13 (a.toNat - Config.vramBase))
  else if Config.oamBase ≤ a.toNat ∧ a.toNat < Config.oamBase + Config.oamSize then
    .oam (BitVec.ofNat 8 (a.toNat - Config.oamBase))
  else
    match registerAt a with
    | some r => .register r
    | none => .unmapped

/-! ### The decoder -/

/-- RD of a register. -/
def decodeReadRegister : BusReg → Instr
  | .lcdc => .rdLcdc
  | .stat => .rdStat
  | .scy => .rdScy
  | .scx => .rdScx
  | .ly => .rdLy
  | .lyc => .rdLyc
  | .bgp => .rdBgp
  | .obp0 => .rdObp0
  | .obp1 => .rdObp1
  | .wy => .rdWy
  | .wx => .rdWx

/-- WR of a register. -/
def decodeWriteRegister (data : Byte) : BusReg → Instr
  | .lcdc => .wrLcdc data
  | .stat => .wrStat data
  | .scy => .wrScy data
  | .scx => .wrScx data
  | .ly => .wrLy data
  | .lyc => .wrLyc data
  | .bgp => .wrBgp data
  | .obp0 => .wrObp0 data
  | .obp1 => .wrObp1 data
  | .wy => .wrWy data
  | .wx => .wrWx data

/-- `op` = 0, by address (30_encoding.md R83). -/
def decodeRead (a : Addr) : Instr :=
  match busTarget a with
  | .vram offset => .rdVram offset
  | .oam offset => .rdOam offset
  | .register r => decodeReadRegister r
  | .unmapped => .rdUnmapped a

/-- `op` = 1, by address (30_encoding.md R83). -/
def decodeWrite (a : Addr) (data : Byte) : Instr :=
  match busTarget a with
  | .vram offset => .wrVram offset data
  | .oam offset => .wrOam offset data
  | .register r => decodeWriteRegister data r
  | .unmapped => .wrUnmapped a data

/-- The decoder, total on every transaction (30_encoding.md R82, R88). A reserved command code is an
instruction of its own, which the machine refuses by name (R86). -/
def decode (t : Transaction) : Instr :=
  if opField t.cw = 0 then decodeRead (addrField t.cw)
  else if opField t.cw = 1 then decodeWrite (addrField t.cw) t.data
  else if opField t.cw = 2 then .adv t.n
  else if opField t.cw = 3 then .poll
  else if opField t.cw = 4 then .takeev
  else if opField t.cw = 5 then .reset
  else .reserved (opField t.cw)

/-- Why a number is not a command word. -/
inductive DecodeError where
  /-- It has a bit above bit 18 (30_encoding.md R89: every command word has 19 bits). -/
  | widerThanCommandWord
  deriving DecidableEq, Repr

/-- The command word a number stands for, or the reason it stands for none. -/
def commandWordOfNat (w : Nat) : Except DecodeError CommandWord :=
  if w < 2 ^ 19 then .ok (BitVec.ofNat 19 w) else .error .widerThanCommandWord

/-- The transaction whose command word is the number and whose operand lines are zero. -/
def transactionOfNat (nbits w : Nat) : Except DecodeError Transaction :=
  match commandWordOfNat (w % 2 ^ nbits) with
  | .ok cw => .ok ⟨cw, 0, 0⟩
  | .error e => .error e

/-- The instruction the decoder reads from a word of spec/opcode_table.json, operands zero. -/
def decodeTableWord (nbits w : Nat) : Option Instr :=
  match transactionOfNat nbits w with
  | .ok t => some (decode t)
  | .error _ => none

/-! ### The encoder -/

/-- A read transaction: `op` 0, no operand. -/
def encodeRead (a : Addr) : Transaction := ⟨commandWord 0 a, 0, 0⟩

/-- A write transaction: `op` 1, operand `data`. -/
def encodeWrite (a : Addr) (data : Byte) : Transaction := ⟨commandWord 1 a, data, 0⟩

/-- A port command: its `op`, address field zero (30_encoding.md R91). -/
def encodePort (op : BitVec 3) (n : Nat) : Transaction := ⟨commandWord op 0, 0, n⟩

/-- Bus address of a VRAM offset (20_memory.md R62). -/
def vramAddress (offset : BitVec 13) : Addr := BitVec.ofNat 16 (Config.vramBase + offset.toNat)

/-- Bus address of an OAM offset (20_memory.md R62). -/
def oamAddress (offset : Byte) : Addr := BitVec.ofNat 16 (Config.oamBase + offset.toNat)

/-- The encoder, from 30_encoding.md R81 to R83 and R91. -/
def encode : Instr → Transaction
  | .rdVram offset => encodeRead (vramAddress offset)
  | .wrVram offset data => encodeWrite (vramAddress offset) data
  | .rdOam offset => encodeRead (oamAddress offset)
  | .wrOam offset data => encodeWrite (oamAddress offset) data
  | .rdLcdc => encodeRead BusReg.lcdc.address
  | .wrLcdc data => encodeWrite BusReg.lcdc.address data
  | .rdStat => encodeRead BusReg.stat.address
  | .wrStat data => encodeWrite BusReg.stat.address data
  | .rdScy => encodeRead BusReg.scy.address
  | .wrScy data => encodeWrite BusReg.scy.address data
  | .rdScx => encodeRead BusReg.scx.address
  | .wrScx data => encodeWrite BusReg.scx.address data
  | .rdLy => encodeRead BusReg.ly.address
  | .wrLy data => encodeWrite BusReg.ly.address data
  | .rdLyc => encodeRead BusReg.lyc.address
  | .wrLyc data => encodeWrite BusReg.lyc.address data
  | .rdBgp => encodeRead BusReg.bgp.address
  | .wrBgp data => encodeWrite BusReg.bgp.address data
  | .rdObp0 => encodeRead BusReg.obp0.address
  | .wrObp0 data => encodeWrite BusReg.obp0.address data
  | .rdObp1 => encodeRead BusReg.obp1.address
  | .wrObp1 data => encodeWrite BusReg.obp1.address data
  | .rdWy => encodeRead BusReg.wy.address
  | .wrWy data => encodeWrite BusReg.wy.address data
  | .rdWx => encodeRead BusReg.wx.address
  | .wrWx data => encodeWrite BusReg.wx.address data
  | .rdUnmapped addr => encodeRead addr
  | .wrUnmapped addr data => encodeWrite addr data
  | .adv n => encodePort 2 n
  | .poll => encodePort 3 0
  | .takeev => encodePort 4 0
  | .reset => encodePort 5 0
  | .reserved op => encodePort op 0

/-! ### The opcode table (spec/opcode_table.json)

Every row fixes the bits from 18 down to `lo`; its mask is those bits and its match `value` there. -/

/-- One row: mnemonic, lowest fixed bit, value of the fixed bits. -/
structure TableRow where
  mnemonic : String
  lo : Nat
  value : Nat
  deriving DecidableEq, Repr

/-- The row's match and mask hold of the command word. -/
def TableRow.matches (r : TableRow) (cw : CommandWord) : Bool := decide (cw.toNat / 2 ^ r.lo = r.value)

/-- The memory-region rows. -/
def tableRegions : List TableRow :=
  [⟨"RD_VRAM", 13, 0x08000 / 2 ^ 13⟩, ⟨"WR_VRAM", 13, 0x18000 / 2 ^ 13⟩,
   ⟨"RD_OAM", 7, 0x0FE00 / 2 ^ 7⟩, ⟨"RD_OAM", 5, 0x0FE80 / 2 ^ 5⟩,
   ⟨"WR_OAM", 7, 0x1FE00 / 2 ^ 7⟩, ⟨"WR_OAM", 5, 0x1FE80 / 2 ^ 5⟩]

/-- The register rows. -/
def tableRegisters : List TableRow :=
  [⟨"RD_LCDC", 0, 0x0FF40⟩, ⟨"WR_LCDC", 0, 0x1FF40⟩, ⟨"RD_STAT", 0, 0x0FF41⟩, ⟨"WR_STAT", 0, 0x1FF41⟩,
   ⟨"RD_SCY", 0, 0x0FF42⟩, ⟨"WR_SCY", 0, 0x1FF42⟩, ⟨"RD_SCX", 0, 0x0FF43⟩, ⟨"WR_SCX", 0, 0x1FF43⟩,
   ⟨"RD_LY", 0, 0x0FF44⟩, ⟨"WR_LY", 0, 0x1FF44⟩, ⟨"RD_LYC", 0, 0x0FF45⟩, ⟨"WR_LYC", 0, 0x1FF45⟩,
   ⟨"RD_BGP", 0, 0x0FF47⟩, ⟨"WR_BGP", 0, 0x1FF47⟩, ⟨"RD_OBP0", 0, 0x0FF48⟩, ⟨"WR_OBP0", 0, 0x1FF48⟩,
   ⟨"RD_OBP1", 0, 0x0FF49⟩, ⟨"WR_OBP1", 0, 0x1FF49⟩, ⟨"RD_WY", 0, 0x0FF4A⟩, ⟨"WR_WY", 0, 0x1FF4A⟩,
   ⟨"RD_WX", 0, 0x0FF4B⟩, ⟨"WR_WX", 0, 0x1FF4B⟩]

/-- The rows that fix `op` only. -/
def tablePort : List TableRow :=
  [⟨"RD_UNMAPPED", 16, 0⟩, ⟨"WR_UNMAPPED", 16, 1⟩, ⟨"ADV", 16, 2⟩, ⟨"POLL", 16, 3⟩, ⟨"TAKEEV", 16, 4⟩,
   ⟨"RESET", 16, 5⟩, ⟨"RESERVED", 17, 3⟩]

/-- The 35 rows. -/
def opcodeTable : List TableRow := tableRegions ++ tableRegisters ++ tablePort

/-- The mnemonic of an instruction, as the table spells it. -/
def Instr.mnemonic : Instr → String
  | .rdVram _ => "RD_VRAM"
  | .wrVram _ _ => "WR_VRAM"
  | .rdOam _ => "RD_OAM"
  | .wrOam _ _ => "WR_OAM"
  | .rdLcdc => "RD_LCDC"
  | .wrLcdc _ => "WR_LCDC"
  | .rdStat => "RD_STAT"
  | .wrStat _ => "WR_STAT"
  | .rdScy => "RD_SCY"
  | .wrScy _ => "WR_SCY"
  | .rdScx => "RD_SCX"
  | .wrScx _ => "WR_SCX"
  | .rdLy => "RD_LY"
  | .wrLy _ => "WR_LY"
  | .rdLyc => "RD_LYC"
  | .wrLyc _ => "WR_LYC"
  | .rdBgp => "RD_BGP"
  | .wrBgp _ => "WR_BGP"
  | .rdObp0 => "RD_OBP0"
  | .wrObp0 _ => "WR_OBP0"
  | .rdObp1 => "RD_OBP1"
  | .wrObp1 _ => "WR_OBP1"
  | .rdWy => "RD_WY"
  | .wrWy _ => "WR_WY"
  | .rdWx => "RD_WX"
  | .wrWx _ => "WR_WX"
  | .rdUnmapped _ => "RD_UNMAPPED"
  | .wrUnmapped _ _ => "WR_UNMAPPED"
  | .adv _ => "ADV"
  | .poll => "POLL"
  | .takeev => "TAKEEV"
  | .reset => "RESET"
  | .reserved _ => "RESERVED"

end Sys2Proof
end

