-- ==== Sys2Proof/Machine/State.lean ====
section
/-! DEFINITION. The state of the block (10_state.md), the host port and the outputs, the typed faults
and the refusals. Plain data throughout. -/

namespace Sys2Proof.Machine

/-- A memory region: the bytes that differ from the reset value 0, as (offset, byte) pairs with
strictly rising offsets (`Memory.wf` in Machine/Ops.lean; notes/assumptions/11.md). -/
abbrev Memory := List Host.Cell

/-- One row of the frame buffer (10_state.md R44). -/
abbrev Row := Vector Shade Config.screenW

/-- The frame buffer, row-major (10_state.md R44). -/
abbrev Frame := Vector Row Config.screenH

/-- A row at the lightest shade. -/
def Row.blank : Row := Vector.replicate Config.screenW 0

/-- A frame at the lightest shade. -/
def Frame.blank : Frame := Vector.replicate Config.screenH Row.blank

/-- The typed faults of the spec (60_exceptions.md R250, R251). -/
inductive Fault where
  /-- A RD or WR of an unmapped address, or a WR to LY. It is never a machine stop: it is the
  transaction's response (`Response.fault`) and the block goes on (R250, notes/assumptions/5.md).
  Safe: the model does what the spec says. -/
  | addressing (addr : Addr) (dir : Dir)
  /-- The defensive check of a colour index of 4 or more, raised only by ADV's check before it runs
  its quanta; it never fires (42_compositor.md R199, notes/assumptions/10.md). Safe: a stop, and
  one that no state reaches. -/
  | paletteDecode (index : Nat)
  deriving DecidableEq, Repr

/-- Why a transaction has no meaning. -/
inductive Refusal where
  /-- An instruction without a meaning in the model, by mnemonic; raised only by an arm of `exec`
  that rejects its instruction, of which there is none. Safe: the machine stops. -/
  | notModelled (mnemonic : String)
  /-- A reserved command code, raised by the meaning of RESERVED (30_encoding.md R86,
  60_exceptions.md R252: refused, not faulted). Safe: the machine stops, and a claim about a stream
  takes "no reserved command" as a premise. -/
  | reservedCommand (op : BitVec 3)
  deriving DecidableEq, Repr

/-- What a transaction returns to the host (30_encoding.md R81). -/
inductive Response where
  /-- WR, ADV and RESET: a bare acknowledgement. -/
  | ack
  /-- RD: the byte read. -/
  | rdata (b : Byte)
  /-- POLL: bit 1 vblank_occurred, bit 0 stat_occurred. -/
  | irq (bits : BitVec 2)
  /-- TAKEEV: the events-ready flag. -/
  | ev (bit : BitVec 1)
  /-- RD or WR that ends in a fault. -/
  | fault (f : Fault)
  deriving DecidableEq, Repr

/-- The state. The first group is 10_state.md's; the last three fields are the host port and the
outputs, which are outside the block (10_state.md R50; notes/assumptions/1.md, 3.md and 4.md). -/
structure State where
  lcdc : Byte
  stat : Byte
  scy : Byte
  scx : Byte
  ly : Byte
  lyc : Byte
  bgp : Byte
  obp0 : Byte
  obp1 : Byte
  wy : Byte
  wx : Byte
  wc : Byte
  vblankPending : Bool
  statPending : Bool
  blockStatIrqs : Bool
  eventsReady : Bool
  counter : Nat
  residue : Nat
  vram : Memory
  oam : Memory
  fb : Frame
  port : List Transaction
  responses : List Response
  frameOut : List Frame
  deriving DecidableEq, Repr

/-- Power-on and reset (10_state.md R47, 70_reset_and_hazards.md R270), with nothing presented at
the port and nothing emitted yet. -/
def State.reset : State where
  lcdc := 0x00
  stat := 0x80
  scy := 0x00
  scx := 0x00
  ly := 0x00
  lyc := 0x00
  bgp := 0x00
  obp0 := 0x00
  obp1 := 0x00
  wy := 0x00
  wx := 0x00
  wc := 0x00
  vblankPending := false
  statPending := false
  blockStatIrqs := false
  eventsReady := false
  counter := 0
  residue := 0
  vram := []
  oam := []
  fb := Frame.blank
  port := []
  responses := []
  frameOut := []

end Sys2Proof.Machine
end

