-- ==== Sys2Proof/Machine/Operands.lean ====
section
/-! DEFINITION. Operand assembly (30_encoding.md R84) and the cycle arithmetic of ADV's operand
(43_frame_pump.md R220). -/

namespace Sys2Proof.Machine

/-- The VRAM offset a VRAM row selects, `addr - 0x8000` (40_register_bank.md R100). -/
def vramIndex (offset : BitVec 13) : Nat := offset.toNat

/-- The OAM offset an OAM row selects, `addr - 0xFE00` (40_register_bank.md R102). -/
def oamIndex (offset : Byte) : Nat := offset.toNat

/-- `data` as stored: the 8-bit value given, with no extension (30_encoding.md R84). -/
def storedByte (data : Byte) : Byte := data

/-- ADV's `n` added to the residue with no wrap (30_encoding.md R84). -/
def advTotal (residue n : Nat) : Nat := residue + n

/-- How many quanta an ADV performs (43_frame_pump.md R220). -/
def advQuanta (residue n : Nat) : Nat := advTotal residue n / Config.quantumCycles

/-- The residue an ADV leaves (43_frame_pump.md R220). -/
def advResidue (residue n : Nat) : Nat := advTotal residue n % Config.quantumCycles

end Sys2Proof.Machine
end

