-- ==== Sys2Proof/Machine/Flags.lean ====
section
/-! DEFINITION. The fields of STAT and LCDC, and every computation of a status bit
(10_state.md R23 to R28, 40_register_bank.md R107, 41_mode_scheduler.md R154 to R160). -/

namespace Sys2Proof.Machine

/-- The four rendering modes (10_state.md R25). -/
inductive Mode where
  | hblank
  | vblank
  | search
  | draw
  deriving DecidableEq, Repr

/-- The number of a mode in STAT.MODE (10_state.md R25). -/
def Mode.bits : Mode → BitVec 2
  | .hblank => 0
  | .vblank => 1
  | .search => 2
  | .draw => 3

/-- STAT.MODE, bits 1:0. -/
def statMode (stat : Byte) : BitVec 2 := stat.extractLsb' 0 2

/-- STAT.COINCIDENCE, bit 2. -/
def statCoincidence (stat : Byte) : Bool := stat.getLsbD 2

/-- The enables, bits 6:3. -/
def statEnables (stat : Byte) : BitVec 4 := stat.extractLsb' 3 4

/-- STAT with another MODE. -/
def withMode (stat : Byte) (m : Mode) : Byte := (stat &&& 0xFC) ||| m.bits.setWidth 8

/-- STAT with another COINCIDENCE. -/
def withCoincidence (stat : Byte) (b : Bool) : Byte := (stat &&& 0xFB) ||| (if b then 0x04 else 0x00)

/-- STAT after a bus write: bits 6:3 from the data, the others kept (40_register_bank.md R107). -/
def withEnables (stat data : Byte) : Byte := (stat &&& 0x87) ||| (data &&& 0x78)

/-- The coincidence condition (41_mode_scheduler.md R159). -/
def coincides (ly lyc : Byte) : Bool := decide (ly = lyc)

/-! ### LCDC (10_state.md R23) -/

/-- LCDC.7. -/
def displayEnable (lcdc : Byte) : Bool := lcdc.getLsbD 7

/-- LCDC.6. -/
def windowMapSelect (lcdc : Byte) : Bool := lcdc.getLsbD 6

/-- LCDC.5. -/
def windowEnable (lcdc : Byte) : Bool := lcdc.getLsbD 5

/-- LCDC.4: 1 is unsigned addressing. -/
def unsignedTiles (lcdc : Byte) : Bool := lcdc.getLsbD 4

/-- LCDC.3. -/
def backgroundMapSelect (lcdc : Byte) : Bool := lcdc.getLsbD 3

/-- LCDC.0. -/
def backgroundEnable (lcdc : Byte) : Bool := lcdc.getLsbD 0

end Sys2Proof.Machine
end

