-- ==== Sys2Proof/Machine/Ops.lean ====
section
/-! DEFINITION. The operations over memory, registers, the frame buffer, the port and the responses
that the meanings share. -/

namespace Sys2Proof.Machine

/-- The result type of a meaning. -/
abbrev Result := Host.Outcome State Fault Refusal

/-! ### Memory regions (10_state.md R42, R43) -/

/-- What a byte that no entry lists reads as: the reset value (10_state.md R47). -/
def Memory.unlisted : Byte := 0

/-- The byte at an offset (20_memory.md R73). -/
def Memory.read : Memory → Nat → Byte
  | [], _ => Memory.unlisted
  | (k, v) :: rest, a => if a = k then v else if a < k then Memory.unlisted else Memory.read rest a

/-- An entry in front of a list, unless it says what an unlisted byte says anyway. -/
def Memory.put (a : Nat) (v : Byte) (rest : Memory) : Memory :=
  if v = Memory.unlisted then rest else (a, v) :: rest

/-- Store a byte at an offset, keeping the canonical form. -/
def Memory.write : Memory → Nat → Byte → Memory
  | [], a, v => Memory.put a v []
  | (k, w) :: rest, a, v =>
    if a < k then Memory.put a v ((k, w) :: rest)
    else if a = k then Memory.put a v rest
    else (k, w) :: Memory.write rest a v

/-- The canonical form: offsets strictly rise and no entry is redundant. -/
abbrev Memory.wf (m : Memory) : Prop :=
  m.Pairwise (fun p q => p.1 < q.1) ∧ ∀ p ∈ m, p.2 ≠ Memory.unlisted

/-- Every listed offset lies in a region of the given size. -/
abbrev Memory.within (size : Nat) (m : Memory) : Prop := ∀ p ∈ m, p.1 < size

/-! ### The frame buffer (10_state.md R44) -/

/-- FB[y][x] (00_scope.md R11); 0 outside the screen (notes/assumptions/12.md). -/
def Frame.pixel (f : Frame) (y x : Nat) : Shade := (f.getD y Row.blank).getD x 0

/-! ### The register bank (10_state.md R22) -/

/-- `REG.NAME` (00_scope.md R11). -/
def State.reg (s : State) : BusReg → Byte
  | .lcdc => s.lcdc
  | .stat => s.stat
  | .scy => s.scy
  | .scx => s.scx
  | .ly => s.ly
  | .lyc => s.lyc
  | .bgp => s.bgp
  | .obp0 => s.obp0
  | .obp1 => s.obp1
  | .wy => s.wy
  | .wx => s.wx

/-- A bus write of a register: STAT takes bits 6:3 only (40_register_bank.md R107), LY has no write
path (R113; the meaning of WR_LY faults and does not come here). -/
def State.busWrite (s : State) (data : Byte) : BusReg → State
  | .lcdc => { s with lcdc := storedByte data }
  | .stat => { s with stat := withEnables s.stat data }
  | .scy => { s with scy := storedByte data }
  | .scx => { s with scx := storedByte data }
  | .ly => s
  | .lyc => { s with lyc := storedByte data }
  | .bgp => { s with bgp := storedByte data }
  | .obp0 => { s with obp0 := storedByte data }
  | .obp1 => { s with obp1 := storedByte data }
  | .wy => { s with wy := storedByte data }
  | .wx => { s with wx := storedByte data }

/-! ### Responses and faults -/

/-- The transaction's response joins the responses given so far (30_encoding.md R81). -/
def respond (r : Response) (s : State) : State := { s with responses := s.responses ++ [r] }

/-- A transaction that completes with a response. -/
def complete (r : Response) (s : State) : Result := .next (respond r s)

/-- TAKING AN ADDRESSING FAULT (60_exceptions.md R250): the response carries the address and the
direction, no state changes, the block stays usable. Nothing is saved and no control is transferred
(R248), so there is nothing to return from (R249). -/
def raiseAddressing (addr : Addr) (dir : Dir) (s : State) : Result :=
  complete (.fault (.addressing addr dir)) s

/-- The fault codes (60_exceptions.md R250, R251). -/
def Fault.code : Fault → Nat
  | .addressing _ _ => 1
  | .paletteDecode _ => 2

/-! ### Shared bus operations -/

/-- RD of a register: the stored byte (30_encoding.md R84). -/
def readRegister (r : BusReg) (s : State) : Result := complete (.rdata (s.reg r)) s

/-- WR of a register. -/
def writeRegister (r : BusReg) (data : Byte) (s : State) : Result := complete .ack (s.busWrite data r)

/-! ### The host port (30_encoding.md R80) -/

/-- The oldest pending transaction, taken from the port; none when the host presents nothing. -/
def fetch (s : State) : Option (Transaction × State) :=
  match s.port with
  | [] => none
  | t :: rest => some (t, { s with port := rest })

/-- The block waits for a transaction and changes nothing (70_reset_and_hazards.md R271;
notes/assumptions/2.md). -/
def idle (s : State) : State := s

/-- The state with a transaction presented ahead of those already pending. -/
def present (t : Transaction) (s : State) : State := { s with port := t :: s.port }

end Sys2Proof.Machine
end

