-- ==== Sys2Proof/Machine/Compositor.lean ====
section
/-! DEFINITION. The scanline compositor (42_compositor.md). A layer is the list of pixels it places,
in the order of the pseudocode of R180; the line is the background's list followed by the window's,
each written in turn, so that a later pixel overwrites an earlier one (R195). -/

namespace Sys2Proof.Machine

/-- One placed pixel: its screen column and its colour index. -/
structure Placement where
  column : Nat
  index : Nat
  deriving DecidableEq, Repr

/-! ### Tile decoding and palette -/

/-- VRAM offset of a tile's data (42_compositor.md R191). -/
def tileBase (lcdc idx : Byte) : Nat :=
  if unsignedTiles lcdc then Config.tileBytes * idx.toNat
  else if idx.toNat ≤ 0x80 then (0x1000 + (Config.tileBytes : Int) * idx.toInt).toNat
  else Config.tileBytes * idx.toNat

/-- TILE_ROW: the low and the high plane byte of row `r` (42_compositor.md R190). -/
def tileRow (s : State) (idx : Byte) (r : Nat) : Byte × Byte :=
  (s.vram.read (tileBase s.lcdc idx + 2 * r), s.vram.read (tileBase s.lcdc idx + 2 * r + 1))

/-- COLOR: bit 1 from the high plane, bit 0 from the low plane, bit 7 leftmost (42_compositor.md R192). -/
def colour (lo hi : Byte) (c : Nat) : Nat :=
  2 * (hi.getLsbD (7 - c)).toNat + (lo.getLsbD (7 - c)).toNat

/-- SHADE: `BGP[2*ci+1 : 2*ci]` (42_compositor.md R193). -/
def shade (bgp : Byte) (ci : Nat) : Shade := bgp.extractLsb' (2 * ci) 2

/-- VRAM offset of a tile map (42_compositor.md R183, R188). -/
def mapBase (select : Bool) : Nat := if select then 0x1C00 else 0x1800

/-- VRAM offset of the map entry of row position `y` and tile slot `slot` (42_compositor.md R185). -/
def mapEntry (base y slot : Nat) : Nat := base + Config.mapW * (y / Config.tileH) + slot

/-! ### Placement -/

/-- Screen column of background column `k = 8*slot + c` (42_compositor.md R186). -/
def backgroundColumn (scx : Byte) (k : Nat) : Option Nat :=
  let x := (((k : Int) - (scx.toNat : Int)) % 256).toNat
  if x < Config.screenW then some x else none

/-- Screen column of window column `k = 8*slot + c` (42_compositor.md R194). -/
def windowColumn (wx : Byte) (k : Nat) : Option Nat :=
  let p := k + wx.toNat
  if Config.winXOffset ≤ p ∧ p - Config.winXOffset < Config.screenW then some (p - Config.winXOffset)
  else none

/-- The pixels one tile slot places: its 8 columns from the left (42_compositor.md R186, R194). -/
def slotPlacements (s : State) (place : Nat → Option Nat) (base y slot : Nat) : List Placement :=
  let row := tileRow s (s.vram.read (mapEntry base y slot)) (y % Config.tileH)
  (List.range Config.tileW).filterMap fun c =>
    (place (Config.tileW * slot + c)).map fun x => ⟨x, colour row.1 row.2 c⟩

/-- The pixels a layer places: its 32 tile slots in turn (42_compositor.md R180). -/
def layerPlacements (s : State) (place : Nat → Option Nat) (base y : Nat) : List Placement :=
  (List.range Config.mapW).flatMap (slotPlacements s place base y)

/-- Row position of the background (42_compositor.md R184). -/
def backgroundRow (s : State) (ly : Nat) : Nat := (s.scy.toNat + ly) % 256

/-- The background layer (42_compositor.md R182 to R186). -/
def backgroundPlacements (s : State) (ly : Nat) : List Placement :=
  if backgroundEnable s.lcdc then
    layerPlacements s (backgroundColumn s.scx) (mapBase (backgroundMapSelect s.lcdc)) (backgroundRow s ly)
  else []

/-- The window layer (42_compositor.md R187 to R189, R194): its row position is WC. -/
def windowPlacements (s : State) (ly : Nat) : List Placement :=
  if windowEnable s.lcdc = true ∧ s.wy.toNat ≤ ly then
    layerPlacements s (windowColumn s.wx) (mapBase (windowMapSelect s.lcdc)) s.wc.toNat
  else []

/-- Every pixel of the line, in the order it is written; none when the display is off
(42_compositor.md R181, R195). -/
def linePlacements (s : State) (ly : Nat) : List Placement :=
  if displayEnable s.lcdc then backgroundPlacements s ly ++ windowPlacements s ly else []

/-- A row with the pixels written in turn. -/
def drawRow (bgp : Byte) (ps : List Placement) (row : Row) : Row :=
  ps.foldl (fun r p => r.setIfInBounds p.column (shade bgp p.index)) row

/-- COMPOSE(ly) (42_compositor.md R180): FB row `ly`, and WC when the window placed a pixel (R196). -/
def compose (ly : Nat) (s : State) : State :=
  if displayEnable s.lcdc then
    { s with
      fb := s.fb.setIfInBounds ly (drawRow s.bgp (linePlacements s ly) (s.fb.getD ly Row.blank))
      wc := if windowPlacements s ly = [] then s.wc else s.wc + 1 }
  else s

/-- The defensive check of 60_exceptions.md R251: the fault of the first colour index of a line that
is not a 2-bit value. -/
def composeFault (ly : Nat) (s : State) : Option Fault :=
  ((linePlacements s ly).find? fun p => decide (Config.shades ≤ p.index)).map fun p => .paletteDecode p.index

end Sys2Proof.Machine
end

