-- ==== Sys2Proof/Machine/Interrupts.lean ====
section
/-! DEFINITION. The interrupt controller: `request_stat` and the POLL command
(60_exceptions.md R240 to R249). -/

namespace Sys2Proof.Machine

/-- `request_stat(B)` (60_exceptions.md R243): a request that fails changes nothing. -/
def requestStat (b : Nat) (s : State) : State :=
  if 3 ≤ b ∧ b ≤ 6 ∧ s.stat.getLsbD b = true ∧ s.blockStatIrqs = false then
    { s with statPending := true, blockStatIrqs := true }
  else s

/-- The pair POLL returns: bit 1 V-blank, bit 0 status (30_encoding.md R81). -/
def irqBits (s : State) : BitVec 2 := BitVec.ofBool s.vblankPending ++ BitVec.ofBool s.statPending

/-- Both latches cleared; `block_stat_irqs` is not touched (60_exceptions.md R244, R245). -/
def clearLatches (s : State) : State := { s with vblankPending := false, statPending := false }

/-- POLL (60_exceptions.md R245). -/
def execPoll (s : State) : Result := complete (.irq (irqBits s)) (clearLatches s)

end Sys2Proof.Machine
end

