-- ==== Sys2Proof/Machine/Scheduler.lean ====
section
/-! DEFINITION. The mode scheduler's step (41_mode_scheduler.md R150), in the order of its
pseudocode. It reads the counter that the frame pump has already advanced. -/

namespace Sys2Proof.Machine

/-- The derived scanline (41_mode_scheduler.md R151). -/
def State.line (s : State) : Nat := s.counter / Config.lineCycles

/-- The derived intra-line offset (41_mode_scheduler.md R151). -/
def State.offset (s : State) : Nat := s.counter % Config.lineCycles

/-- Scanline change: re-arm the status interrupt, and restart the window at line 0
(41_mode_scheduler.md R152). -/
def lineChange (line : Nat) (s : State) : State :=
  if line = s.ly.toNat then s
  else { s with blockStatIrqs := false, wc := if line = 0 then 0 else s.wc }

/-- Scanline change, then LY (41_mode_scheduler.md R152, R153). -/
def enterLine (line : Nat) (s : State) : State := { lineChange line s with ly := BitVec.ofNat 8 line }

/-- STAT.MODE takes a mode. -/
def setMode (m : Mode) (s : State) : State := { s with stat := withMode s.stat m }

/-- Mode 2 entry (41_mode_scheduler.md R154). -/
def enterSearch (s : State) : State := requestStat 5 (setMode .search s)

/-- Mode 3 entry: the compositor runs for scanline LY (41_mode_scheduler.md R155). -/
def enterDraw (s : State) : State := compose s.ly.toNat (setMode .draw s)

/-- Mode 0 entry (41_mode_scheduler.md R156). -/
def enterHblank (s : State) : State := requestStat 3 (setMode .hblank s)

/-- Mode 1 entry (41_mode_scheduler.md R157). -/
def enterVblank (s : State) : State := requestStat 4 { setMode .vblank s with vblankPending := true }

/-- The mode transitions (41_mode_scheduler.md R154 to R158). -/
def transition (line offset : Nat) (s : State) : State :=
  if line < Config.visibleLines then
    if offset = 0 then enterSearch s
    else if offset = Config.mode3Offset then enterDraw s
    else if offset = Config.mode0Offset then enterHblank s
    else s
  else if line = Config.visibleLines ∧ offset = 0 then enterVblank s
  else s

/-- STAT.COINCIDENCE recomputed (41_mode_scheduler.md R159). -/
def updateCoincidence (s : State) : State :=
  { s with stat := withCoincidence s.stat (coincides s.ly s.lyc) }

/-- The coincidence request (41_mode_scheduler.md R160). -/
def requestCoincidence (offset : Nat) (s : State) : State :=
  if statCoincidence s.stat = true ∧ offset = 0 then requestStat 6 s else s

/-- SCHED_STEP (41_mode_scheduler.md R150). -/
def schedStep (s : State) : State :=
  requestCoincidence s.offset
    (updateCoincidence (transition s.line s.offset (enterLine s.line s)))

end Sys2Proof.Machine
end

