-- ==== Sys2Proof/Machine/FramePump.lean ====
section
/-! DEFINITION. The frame pump (43_frame_pump.md): the quantum, the hand-off, and the commands ADV,
TAKEEV and RESET. -/

namespace Sys2Proof.Machine

/-- HANDOFF (43_frame_pump.md R223 to R226): emit a copy of FB, clear it, raise events_ready. -/
def handoff (s : State) : State :=
  { s with frameOut := s.frameOut ++ [s.fb], fb := Frame.blank, eventsReady := true }

/-- The counter's advance, with the hand-off at the wrap (43_frame_pump.md R221, R222). -/
def advanceCounter (s : State) : State :=
  if Config.frameCycles ≤ s.counter + Config.quantumCycles then
    handoff { s with counter := s.counter + Config.quantumCycles - Config.frameCycles }
  else { s with counter := s.counter + Config.quantumCycles }

/-- QUANTUM (43_frame_pump.md R221). -/
def quantum (s : State) : State := schedStep (advanceCounter s)

/-- `k` quanta in a row. -/
def quanta : Nat → State → State
  | 0, s => s
  | k + 1, s => quanta k (quantum s)

/-- The block after `n` more elapsed cycles (43_frame_pump.md R220). -/
def advance (n : Nat) (s : State) : State :=
  quanta (advQuanta s.residue n) { s with residue := advResidue s.residue n }

/-! ### The defensive check of 60_exceptions.md R251 -/

/-- What a mode-3 entry at the state's counter would fault with. -/
def drawFault (s : State) : Option Fault :=
  if s.line < Config.visibleLines ∧ s.offset = Config.mode3Offset then
    composeFault (enterLine s.line s).ly.toNat (enterLine s.line s)
  else none

/-- What the next quantum would fault with. -/
def quantumFault (s : State) : Option Fault := drawFault (advanceCounter s)

/-- What the next `k` quanta would fault with. -/
def quantaFault : Nat → State → Option Fault
  | 0, _ => none
  | k + 1, s =>
    match quantumFault s with
    | some f => some f
    | none => quantaFault k (quantum s)

/-- What an ADV would fault with: nothing, in every state (`Sys2Proof.Laws.advFault_none`). -/
def advFault (n : Nat) (s : State) : Option Fault := quantaFault (advQuanta s.residue n) s

/-! ### The commands -/

/-- ADV (43_frame_pump.md R220). -/
def execAdv (n : Nat) (s : State) : Result :=
  match advFault n s with
  | some f => .fault f
  | none => complete .ack (advance n s)

/-- TAKEEV (43_frame_pump.md R227). -/
def execTakeev (s : State) : Result :=
  complete (.ev (BitVec.ofBool s.eventsReady)) { s with eventsReady := false }

/-- The block at its reset values; what the host still presents, and what it has already been given,
is outside the block and stays (43_frame_pump.md R229, R224; notes/assumptions/4.md). -/
def resetBlock (s : State) : State :=
  { State.reset with port := s.port, responses := s.responses, frameOut := s.frameOut }

/-- RESET (43_frame_pump.md R229). -/
def execReset (s : State) : Result := complete .ack (resetBlock s)

/-- A reserved command code: no meaning, no state change (30_encoding.md R86, 60_exceptions.md R252). -/
def execReserved (op : BitVec 3) (_ : State) : Result := .refused (.reservedCommand op)

end Sys2Proof.Machine
end

