-- ==== Sys2Proof/Machine/MemoryRegions.lean ====
section
/-! DEFINITION. The bus transactions on the two memory regions (40_register_bank.md R100 to R103). -/

namespace Sys2Proof.Machine

/-- RD_VRAM (40_register_bank.md R100). -/
def execRdVram (offset : BitVec 13) (s : State) : Result :=
  complete (.rdata (s.vram.read (vramIndex offset))) s

/-- WR_VRAM (40_register_bank.md R101). -/
def execWrVram (offset : BitVec 13) (data : Byte) (s : State) : Result :=
  complete .ack { s with vram := s.vram.write (vramIndex offset) (storedByte data) }

/-- RD_OAM (40_register_bank.md R102). -/
def execRdOam (offset : Byte) (s : State) : Result :=
  complete (.rdata (s.oam.read (oamIndex offset))) s

/-- WR_OAM (40_register_bank.md R103). -/
def execWrOam (offset : Byte) (data : Byte) (s : State) : Result :=
  complete .ack { s with oam := s.oam.write (oamIndex offset) (storedByte data) }

end Sys2Proof.Machine
end

