-- ==== Sys2Proof/Machine/RegisterBank.lean ====
section
/-! DEFINITION. The bus transactions on the registers and on unmapped addresses
(40_register_bank.md R104 to R126), one meaning each over the shared operations. -/

namespace Sys2Proof.Machine

/-- RD_LCDC (40_register_bank.md R104). -/
def execRdLcdc (s : State) : Result := readRegister .lcdc s

/-- WR_LCDC (40_register_bank.md R105). -/
def execWrLcdc (data : Byte) (s : State) : Result := writeRegister .lcdc data s

/-- RD_STAT (40_register_bank.md R106). -/
def execRdStat (s : State) : Result := readRegister .stat s

/-- WR_STAT (40_register_bank.md R107). -/
def execWrStat (data : Byte) (s : State) : Result := writeRegister .stat data s

/-- RD_SCY (40_register_bank.md R108). -/
def execRdScy (s : State) : Result := readRegister .scy s

/-- WR_SCY (40_register_bank.md R109). -/
def execWrScy (data : Byte) (s : State) : Result := writeRegister .scy data s

/-- RD_SCX (40_register_bank.md R110). -/
def execRdScx (s : State) : Result := readRegister .scx s

/-- WR_SCX (40_register_bank.md R111). -/
def execWrScx (data : Byte) (s : State) : Result := writeRegister .scx data s

/-- RD_LY (40_register_bank.md R112). -/
def execRdLy (s : State) : Result := readRegister .ly s

/-- WR_LY: always AddressingFault(0xFF44, write) (40_register_bank.md R113). -/
def execWrLy (_ : Byte) (s : State) : Result := raiseAddressing 0xFF44 .write s

/-- RD_LYC (40_register_bank.md R114). -/
def execRdLyc (s : State) : Result := readRegister .lyc s

/-- WR_LYC (40_register_bank.md R115). -/
def execWrLyc (data : Byte) (s : State) : Result := writeRegister .lyc data s

/-- RD_BGP (40_register_bank.md R116). -/
def execRdBgp (s : State) : Result := readRegister .bgp s

/-- WR_BGP (40_register_bank.md R117). -/
def execWrBgp (data : Byte) (s : State) : Result := writeRegister .bgp data s

/-- RD_OBP0 (40_register_bank.md R118). -/
def execRdObp0 (s : State) : Result := readRegister .obp0 s

/-- WR_OBP0 (40_register_bank.md R119). -/
def execWrObp0 (data : Byte) (s : State) : Result := writeRegister .obp0 data s

/-- RD_OBP1 (40_register_bank.md R120). -/
def execRdObp1 (s : State) : Result := readRegister .obp1 s

/-- WR_OBP1 (40_register_bank.md R121). -/
def execWrObp1 (data : Byte) (s : State) : Result := writeRegister .obp1 data s

/-- RD_WY (40_register_bank.md R122). -/
def execRdWy (s : State) : Result := readRegister .wy s

/-- WR_WY (40_register_bank.md R123). -/
def execWrWy (data : Byte) (s : State) : Result := writeRegister .wy data s

/-- RD_WX (40_register_bank.md R124). -/
def execRdWx (s : State) : Result := readRegister .wx s

/-- WR_WX (40_register_bank.md R125). -/
def execWrWx (data : Byte) (s : State) : Result := writeRegister .wx data s

/-- RD_UNMAPPED (40_register_bank.md R126). -/
def execRdUnmapped (addr : Addr) (s : State) : Result := raiseAddressing addr .read s

/-- WR_UNMAPPED (40_register_bank.md R126). -/
def execWrUnmapped (addr : Addr) (_ : Byte) (s : State) : Result := raiseAddressing addr .write s

end Sys2Proof.Machine
end

