-- ==== Sys2Proof/Machine/Dispatch.lean ====
section
/-! DEFINITION. The dispatch: one arm per transaction, each a call of its meaning. -/

namespace Sys2Proof.Machine

def exec (i : Instr) (s : State) : Host.Outcome State Fault Refusal :=
  match i with
  | .rdVram offset => Sys2Proof.Machine.execRdVram offset s
  | .wrVram offset data => Sys2Proof.Machine.execWrVram offset data s
  | .rdOam offset => Sys2Proof.Machine.execRdOam offset s
  | .wrOam offset data => Sys2Proof.Machine.execWrOam offset data s
  | .rdLcdc => Sys2Proof.Machine.execRdLcdc s
  | .wrLcdc data => Sys2Proof.Machine.execWrLcdc data s
  | .rdStat => Sys2Proof.Machine.execRdStat s
  | .wrStat data => Sys2Proof.Machine.execWrStat data s
  | .rdScy => Sys2Proof.Machine.execRdScy s
  | .wrScy data => Sys2Proof.Machine.execWrScy data s
  | .rdScx => Sys2Proof.Machine.execRdScx s
  | .wrScx data => Sys2Proof.Machine.execWrScx data s
  | .rdLy => Sys2Proof.Machine.execRdLy s
  | .wrLy data => Sys2Proof.Machine.execWrLy data s
  | .rdLyc => Sys2Proof.Machine.execRdLyc s
  | .wrLyc data => Sys2Proof.Machine.execWrLyc data s
  | .rdBgp => Sys2Proof.Machine.execRdBgp s
  | .wrBgp data => Sys2Proof.Machine.execWrBgp data s
  | .rdObp0 => Sys2Proof.Machine.execRdObp0 s
  | .wrObp0 data => Sys2Proof.Machine.execWrObp0 data s
  | .rdObp1 => Sys2Proof.Machine.execRdObp1 s
  | .wrObp1 data => Sys2Proof.Machine.execWrObp1 data s
  | .rdWy => Sys2Proof.Machine.execRdWy s
  | .wrWy data => Sys2Proof.Machine.execWrWy data s
  | .rdWx => Sys2Proof.Machine.execRdWx s
  | .wrWx data => Sys2Proof.Machine.execWrWx data s
  | .rdUnmapped addr => Sys2Proof.Machine.execRdUnmapped addr s
  | .wrUnmapped addr data => Sys2Proof.Machine.execWrUnmapped addr data s
  | .adv n => Sys2Proof.Machine.execAdv n s
  | .poll => Sys2Proof.Machine.execPoll s
  | .takeev => Sys2Proof.Machine.execTakeev s
  | .reset => Sys2Proof.Machine.execReset s
  | .reserved op => Sys2Proof.Machine.execReserved op s

end Sys2Proof.Machine
end

