-- ==== Sys2Proof/Machine/Step.lean ====
section
/-! DEFINITION. One step: the oldest pending transaction is decoded and performed whole
(30_encoding.md R80, 20_memory.md R72); with none pending the block waits. -/

namespace Sys2Proof.Machine

/-- One step of the machine. -/
def step (s : State) : Host.Outcome State Fault Refusal :=
  match fetch s with
  | none => .next (idle s)
  | some (t, s') => exec (decode t) s'

/-- The state with a word of spec/opcode_table.json presented at the port, operands zero, so that
the next step runs it. A number that is no command word presents nothing. -/
def State.withFetchWord (s : State) (nbits w : Nat) : State :=
  match transactionOfNat nbits w with
  | .ok t => present t s
  | .error _ => s

end Sys2Proof.Machine
end

