-- ==== Sys2Proof/Machine/Assembler.lean ====
section
/-! DEFINITION. The notation for transaction streams: one command per line, register names,
pseudo-commands (30_encoding.md R90, R91). A line is a list of characters; what R90 leaves open about
the text is in notes/assumptions/16.md. -/

namespace Sys2Proof.Machine

/-- The commands and pseudo-commands with their operands read. -/
inductive AsmLine where
  | rd (addr : Addr)
  | wr (addr : Addr) (data : Byte)
  | adv (n : Nat)
  | poll
  | takeev
  | reset
  | step
  | line
  | frame
  | wrv (offset : BitVec 13) (data : Byte)
  | rdv (offset : BitVec 13)
  deriving DecidableEq, Repr

/-- The transaction of a command, pseudo-commands expanded (30_encoding.md R91). -/
def AsmLine.transaction : AsmLine → Transaction
  | .rd addr => encodeRead addr
  | .wr addr data => encodeWrite addr data
  | .adv n => encodePort 2 n
  | .poll => encodePort 3 0
  | .takeev => encodePort 4 0
  | .reset => encodePort 5 0
  | .step => encodePort 2 Config.quantumCycles
  | .line => encodePort 2 Config.lineCycles
  | .frame => encodePort 2 Config.frameCycles
  | .wrv offset data => encodeWrite (vramAddress offset) data
  | .rdv offset => encodeRead (vramAddress offset)

/-! ### Reading a line -/

/-- The value of a digit character in base 16 (or 10, for the digits alone). -/
def digitValue (base : Nat) (c : Char) : Option Nat :=
  let n := c.toNat
  let v :=
    if 48 ≤ n ∧ n ≤ 57 then some (n - 48)
    else if 65 ≤ n ∧ n ≤ 70 then some (n - 55)
    else if 97 ≤ n ∧ n ≤ 102 then some (n - 87)
    else none
  match v with
  | some d => if d < base then some d else none
  | none => none

/-- The digits of a number, most significant first. -/
def digitsValue (base : Nat) : Nat → List Char → Option Nat
  | acc, [] => some acc
  | acc, c :: rest =>
    match digitValue base c with
    | some d => digitsValue base (base * acc + d) rest
    | none => none

/-- A number, decimal or 0x-hexadecimal. -/
def numberToken : List Char → Option Nat
  | [] => none
  | '0' :: 'x' :: c :: rest => digitsValue 16 0 (c :: rest)
  | c :: rest => digitsValue 10 0 (c :: rest)

/-- A number that fits `w` bits. -/
def wordToken (w : Nat) (t : List Char) : Option (BitVec w) :=
  match numberToken t with
  | some n => if n < 2 ^ w then some (BitVec.ofNat w n) else none
  | none => none

/-- A register name (30_encoding.md R90). -/
def registerToken (t : List Char) : Option BusReg :=
  if t = ['L', 'C', 'D', 'C'] then some .lcdc
  else if t = ['S', 'T', 'A', 'T'] then some .stat
  else if t = ['S', 'C', 'Y'] then some .scy
  else if t = ['S', 'C', 'X'] then some .scx
  else if t = ['L', 'Y'] then some .ly
  else if t = ['L', 'Y', 'C'] then some .lyc
  else if t = ['B', 'G', 'P'] then some .bgp
  else if t = ['O', 'B', 'P', '0'] then some .obp0
  else if t = ['O', 'B', 'P', '1'] then some .obp1
  else if t = ['W', 'Y'] then some .wy
  else if t = ['W', 'X'] then some .wx
  else none

/-- An address: a 16-bit number or a register name (30_encoding.md R90). -/
def addressToken (t : List Char) : Option Addr :=
  match registerToken t with
  | some r => some r.address
  | none => wordToken 16 t

/-- The text before a comment. -/
def stripComment : List Char → List Char
  | [] => []
  | c :: rest => if c = ';' then [] else c :: stripComment rest

/-- A finished word joins the words after it, unless it is empty. -/
def pushToken (word : List Char) (rest : List (List Char)) : List (List Char) :=
  if word = [] then rest else word.reverse :: rest

/-- The words of a line; `word` is the one being read, reversed. Blanks separate words and a comma
is a word of its own. -/
def tokens : List Char → List Char → List (List Char)
  | word, [] => pushToken word []
  | word, c :: rest =>
    if c = ' ' ∨ c = '\t' then pushToken word (tokens [] rest)
    else if c = ',' then pushToken word ([','] :: tokens [] rest)
    else tokens (c :: word) rest

/-- The words before an expected result (`-> value`). -/
def stripExpected : List (List Char) → List (List Char)
  | [] => []
  | t :: rest => if t = ['-', '>'] then [] else t :: stripExpected rest

/-- A command that has no operand. -/
def bareCommand (t : List Char) : Option AsmLine :=
  if t = ['P', 'O', 'L', 'L'] then some .poll
  else if t = ['T', 'A', 'K', 'E', 'E', 'V'] then some .takeev
  else if t = ['R', 'E', 'S', 'E', 'T'] then some .reset
  else if t = ['S', 'T', 'E', 'P'] then some .step
  else if t = ['L', 'I', 'N', 'E'] then some .line
  else if t = ['F', 'R', 'A', 'M', 'E'] then some .frame
  else none

/-- A command with one operand. -/
def unaryCommand (t a : List Char) : Option AsmLine :=
  if t = ['R', 'D'] then (addressToken a).map .rd
  else if t = ['A', 'D', 'V'] then (numberToken a).map .adv
  else if t = ['R', 'D', 'V'] then (wordToken 13 a).map .rdv
  else none

/-- A command with two operands. -/
def binaryCommand (t a b : List Char) : Option AsmLine :=
  match wordToken 8 b with
  | none => none
  | some data =>
    if t = ['W', 'R'] then (addressToken a).map fun addr => .wr addr data
    else if t = ['W', 'R', 'V'] then (wordToken 13 a).map fun offset => .wrv offset data
    else none

/-- One line of a stream, none where it is no command. -/
def parseLine (line : List Char) : Option AsmLine :=
  match stripExpected (tokens [] (stripComment line)) with
  | [t] => bareCommand t
  | [t, a] => unaryCommand t a
  | [t, a, comma, b] => if comma = [','] then binaryCommand t a b else none
  | _ => none

/-- The transaction of one line. -/
def assembleLine (line : List Char) : Option Transaction := (parseLine line).map AsmLine.transaction

/-- The transactions of a stream, none where a line is no command. -/
def assemble (lines : List (List Char)) : Option (List Transaction) := lines.mapM assembleLine

end Sys2Proof.Machine
end

