-- ==== Sys2Proof/Safety.lean ====
section
/-! DEFINITION. The terms that claims about the block use: the invariants of a run, the timing part
of a state, the pixel a layer shows, and the premise about reserved commands. -/

namespace Sys2Proof.Machine

/-! ### Invariants -/

/-- The mode at a counter value (10_state.md R48). -/
def modeAt (c : Nat) : Mode :=
  if c / Config.lineCycles < Config.visibleLines then
    if c % Config.lineCycles < Config.mode3Offset then .search
    else if c % Config.lineCycles < Config.mode0Offset then .draw
    else .hblank
  else .vblank

/-- How many lines of the frame have had their mode-3 entry at a counter value
(41_mode_scheduler.md R167). -/
def composesDone (c : Nat) : Nat :=
  min Config.visibleLines
    (c / Config.lineCycles + if Config.mode3Offset ≤ c % Config.lineCycles then 1 else 0)

/-- Position and mode of a state that a run can reach (10_state.md R28, R40, R46, R48; the second
case of `modeHeld` is the first line after reset, 41_mode_scheduler.md R164). -/
structure TimingOk (s : State) : Prop where
  counterInFrame : s.counter < Config.frameCycles
  counterAligned : s.counter % Config.quantumCycles = 0
  residueSmall : s.residue < Config.quantumCycles
  lineHeld : s.ly.toNat = s.line
  statTop : s.stat.getLsbD 7 = true
  modeHeld : statMode s.stat = (modeAt s.counter).bits ∨
    (s.counter < Config.mode3Offset ∧ statMode s.stat = Mode.hblank.bits)

/-- Both memory regions are in canonical form and inside their sizes (10_state.md R42, R43). -/
structure MemoryOk (s : State) : Prop where
  vramForm : s.vram.wf
  vramSize : s.vram.within Config.vramSize
  oamForm : s.oam.wf
  oamSize : s.oam.within Config.oamSize

/-- The window has advanced at most once a composed line, and rows not composed yet in this frame
are at the lightest shade (42_compositor.md R196, R197, 43_frame_pump.md R225). -/
structure ScreenOk (s : State) : Prop where
  windowBehind : s.wc.toNat ≤ composesDone s.counter
  rowsAheadBlank : ∀ y x, composesDone s.counter ≤ y → y < Config.screenH → x < Config.screenW →
    s.fb.pixel y x = 0

/-! ### The timing part of a state -/

/-- What the scheduler's timing reads and writes (41_mode_scheduler.md R162). -/
structure Timing where
  stat : Byte
  ly : Byte
  lyc : Byte
  vblankPending : Bool
  statPending : Bool
  blockStatIrqs : Bool
  eventsReady : Bool
  counter : Nat
  residue : Nat
  deriving DecidableEq, Repr

/-- The timing part. -/
def State.timing (s : State) : Timing where
  stat := s.stat
  ly := s.ly
  lyc := s.lyc
  vblankPending := s.vblankPending
  statPending := s.statPending
  blockStatIrqs := s.blockStatIrqs
  eventsReady := s.eventsReady
  counter := s.counter
  residue := s.residue

/-! ### What a line shows -/

/-- The shade of column `k` of a layer whose map is at `base` and whose row position is `y`
(42_compositor.md R185, R189 to R193). -/
def layerShade (s : State) (base y k : Nat) : Shade :=
  let row := tileRow s (s.vram.read (mapEntry base y (k / 8))) (y % 8)
  shade s.bgp (colour row.1 row.2 (k % 8))

/-! ### Runs and safe streams -/

/-- `k` steps, ending early at a fault or a refusal. -/
def run : Nat → State → Result
  | 0, s => .next s
  | k + 1, s =>
    match step s with
    | .next t => run k t
    | .fault f => .fault f
    | .refused r => .refused r

/-- No pending transaction has a reserved command code (30_encoding.md R86). -/
def NoReserved (s : State) : Prop := ∀ t ∈ s.port, opField t.cw ≠ 6 ∧ opField t.cw ≠ 7

/-- The status sources that the step asks for and that are enabled: search, H-idle, frame-idle or
coincidence (60_exceptions.md R240, R243). -/
def statusWanted (s : State) : Bool :=
  (decide (s.line < 144 ∧ s.offset = 0) && s.stat.getLsbD 5) ||
  (decide (s.line < 144 ∧ s.offset = 252) && s.stat.getLsbD 3) ||
  (decide (s.line = 144 ∧ s.offset = 0) && s.stat.getLsbD 4) ||
  (decide (BitVec.ofNat 8 s.line = s.lyc ∧ s.offset = 0) && s.stat.getLsbD 6)

/-- The suppression that stands after the step's scanline change (41_mode_scheduler.md R152). -/
def stillBlocked (s : State) : Bool := s.blockStatIrqs && decide (s.line = s.ly.toNat)

end Sys2Proof.Machine
end

