-- ==== Sys2Proof/Certificates/Slice0/Obligations.lean ====
section
/-! DEFINITION. The statements for the provers. Where a docstring says "port", "responses" or
"frameOut" it speaks of the model's own fields (notes/assumptions/1.md, 3.md, 4.md), which carry what
the spec says passes through the host port and the display-sink output. -/

open Sys2Proof Sys2Proof.Machine

/-! ### Encoding -/

/-- 30_encoding.md R81 to R89: no bit of an encoding is dropped. -/
def Obligations.DecodeOfEncodeIsIdentity : Prop :=
  ∀ i : Instr, i.wf = true → decode (encode i) = i

/-- 30_encoding.md R88: the decoder is total, and what it gives is a transaction of the spec. -/
def Obligations.DecodedTransactionsAreWellFormed : Prop :=
  ∀ t : Transaction, (decode t).wf = true

/-- 30_encoding.md R83, R88: among the rows of the opcode table that match a command word, the one
with the most fixed bits is unique and names the decoded transaction. -/
def Obligations.DecodeSelectsMostSpecificRow : Prop :=
  ∀ t : Transaction, ∃ r ∈ opcodeTable, r.matches t.cw = true ∧ r.mnemonic = (decode t).mnemonic ∧
    ∀ r' ∈ opcodeTable, r'.matches t.cw = true → r' = r ∨ r.lo < r'.lo

/-- Command words written out in 95_test_vectors.md section 2, at least one of every family. -/
def Obligations.SpecCommandWordsDecode : Prop :=
  ∀ (d : Byte) (n : Nat),
    decode ⟨0x09FFF, d, n⟩ = .rdVram 0x1FFF ∧
    decode ⟨0x0A000, d, n⟩ = .rdUnmapped 0xA000 ∧
    decode ⟨0x19800, d, n⟩ = .wrVram 0x1800 d ∧
    decode ⟨0x0FE7F, d, n⟩ = .rdOam 0x7F ∧
    decode ⟨0x0FE80, d, n⟩ = .rdOam 0x80 ∧
    decode ⟨0x1FE9F, d, n⟩ = .wrOam 0x9F d ∧
    decode ⟨0x0FEA0, d, n⟩ = .rdUnmapped 0xFEA0 ∧
    decode ⟨0x1FF41, d, n⟩ = .wrStat d ∧
    decode ⟨0x0FF44, d, n⟩ = .rdLy ∧
    decode ⟨0x1FF44, d, n⟩ = .wrLy d ∧
    decode ⟨0x1FF46, d, n⟩ = .wrUnmapped 0xFF46 d ∧
    decode ⟨0x2ABCD, d, n⟩ = .adv n ∧
    decode ⟨0x3FFFF, d, n⟩ = .poll ∧
    decode ⟨0x40000, d, n⟩ = .takeev ∧
    decode ⟨0x50000, d, n⟩ = .reset ∧
    decode ⟨0x7FFFF, d, n⟩ = .reserved 7

/-- 30_encoding.md R83: every RD and WR word is re-encoded to itself, so no two bus words stand for
one transaction. -/
def Obligations.BusWordsReencodeToThemselves : Prop :=
  ∀ (a : Addr) (d : Byte),
    encode (decode (encodeRead a)) = encodeRead a ∧ encode (decode (encodeWrite a d)) = encodeWrite a d

/-- 30_encoding.md R85. -/
def Obligations.PortCommandsIgnoreAddressField : Prop :=
  ∀ (a : Addr) (d : Byte) (n : Nat),
    decode ⟨commandWord 2 a, d, n⟩ = .adv n ∧ decode ⟨commandWord 3 a, d, n⟩ = .poll ∧
    decode ⟨commandWord 4 a, d, n⟩ = .takeev ∧ decode ⟨commandWord 5 a, d, n⟩ = .reset

/-- 30_encoding.md R91: the pseudo-commands' expansions and the command words of the commands. -/
def Obligations.PseudoCommandsExpandAsTabled : Prop :=
  AsmLine.step.transaction = (AsmLine.adv 4).transaction ∧
  AsmLine.line.transaction = (AsmLine.adv 456).transaction ∧
  AsmLine.frame.transaction = (AsmLine.adv 70224).transaction ∧
  (∀ (o : BitVec 13) (d : Byte),
    (AsmLine.wrv o d).transaction = (AsmLine.wr (BitVec.ofNat 16 (0x8000 + o.toNat)) d).transaction ∧
    (AsmLine.rdv o).transaction = (AsmLine.rd (BitVec.ofNat 16 (0x8000 + o.toNat))).transaction) ∧
  (∀ (a : Addr) (d : Byte),
    (AsmLine.rd a).transaction.cw.toNat = a.toNat ∧
    (AsmLine.wr a d).transaction.cw.toNat = 0x10000 + a.toNat ∧ (AsmLine.wr a d).transaction.data = d) ∧
  (∀ n : Nat, (AsmLine.adv n).transaction.cw = 0x20000 ∧ (AsmLine.adv n).transaction.n = n) ∧
  AsmLine.poll.transaction.cw = 0x30000 ∧ AsmLine.takeev.transaction.cw = 0x40000 ∧
  AsmLine.reset.transaction.cw = 0x50000

/-! ### The step -/

/-- A step runs the decoded transaction: the oldest pending one is taken from the port and performed
(30_encoding.md R80; the port list is the model's, notes/assumptions/1.md). -/
def Obligations.StepRunsDecodedTransaction : Prop :=
  ∀ (s : State) (t : Transaction) (rest : List Transaction),
    s.port = t :: rest → step s = exec (decode t) { s with port := rest }

/-- A well-formed transaction that the host presents, encoded, is the one that the next step runs. -/
def Obligations.PresentedTransactionRunsNext : Prop :=
  ∀ (i : Instr) (s : State), i.wf = true → step (present (encode i) s) = exec i s

/-- 70_reset_and_hazards.md R271 "the block waits for its first transaction"; that a step with
nothing presented is a next state is the model's choice (notes/assumptions/2.md). -/
def Obligations.StepWithNothingPresentedChangesNothing : Prop :=
  ∀ s : State, s.port = [] → step s = .next s

/-- 30_encoding.md R86, 60_exceptions.md R252. -/
def Obligations.ReservedCommandsAreRefused : Prop :=
  (∀ (op : BitVec 3) (s : State), exec (.reserved op) s = .refused (.reservedCommand op)) ∧
  ∀ (t : Transaction) (s : State), opField t.cw = 6 ∨ opField t.cw = 7 →
    exec (decode t) s = .refused (.reservedCommand (opField t.cw))

/-- 60_exceptions.md R251, 42_compositor.md R199: the defensive check of colour indices never fires,
and no transaction stops the machine with a fault, in any state. -/
def Obligations.NoTransactionStopsWithAFault : Prop :=
  ∀ (i : Instr) (s : State) (f : Fault), exec i s ≠ .fault f

/-- 60_exceptions.md R253 with the premise of 30_encoding.md R86: a stream without reserved commands
runs for ever. That the run goes on once the stream is used up, since waiting with nothing presented
counts as a step, is the model's choice (notes/assumptions/2.md). -/
def Obligations.StreamsWithoutReservedCommandsNeverStop : Prop :=
  ∀ (k : Nat) (s : State), NoReserved s → ∃ t : State, run k s = .next t

/-! ### Register bank -/

/-- 40_register_bank.md R104 to R124 (reads): the table's command word, and the stored byte as the
response; nothing else changes. -/
def Obligations.RegisterReadsReturnTheStoredByte : Prop :=
  ∀ (s : State) (d : Byte) (n : Nat),
    (decode ⟨0x0FF40, d, n⟩ = .rdLcdc ∧
      exec .rdLcdc s = .next { s with responses := s.responses ++ [.rdata s.lcdc] }) ∧
    (decode ⟨0x0FF41, d, n⟩ = .rdStat ∧
      exec .rdStat s = .next { s with responses := s.responses ++ [.rdata s.stat] }) ∧
    (decode ⟨0x0FF42, d, n⟩ = .rdScy ∧
      exec .rdScy s = .next { s with responses := s.responses ++ [.rdata s.scy] }) ∧
    (decode ⟨0x0FF43, d, n⟩ = .rdScx ∧
      exec .rdScx s = .next { s with responses := s.responses ++ [.rdata s.scx] }) ∧
    (decode ⟨0x0FF44, d, n⟩ = .rdLy ∧
      exec .rdLy s = .next { s with responses := s.responses ++ [.rdata s.ly] }) ∧
    (decode ⟨0x0FF45, d, n⟩ = .rdLyc ∧
      exec .rdLyc s = .next { s with responses := s.responses ++ [.rdata s.lyc] }) ∧
    (decode ⟨0x0FF47, d, n⟩ = .rdBgp ∧
      exec .rdBgp s = .next { s with responses := s.responses ++ [.rdata s.bgp] }) ∧
    (decode ⟨0x0FF48, d, n⟩ = .rdObp0 ∧
      exec .rdObp0 s = .next { s with responses := s.responses ++ [.rdata s.obp0] }) ∧
    (decode ⟨0x0FF49, d, n⟩ = .rdObp1 ∧
      exec .rdObp1 s = .next { s with responses := s.responses ++ [.rdata s.obp1] }) ∧
    (decode ⟨0x0FF4A, d, n⟩ = .rdWy ∧
      exec .rdWy s = .next { s with responses := s.responses ++ [.rdata s.wy] }) ∧
    (decode ⟨0x0FF4B, d, n⟩ = .rdWx ∧
      exec .rdWx s = .next { s with responses := s.responses ++ [.rdata s.wx] })

/-- 40_register_bank.md R106: a read of STAT returns the constant 1, the enables, COINCIDENCE and
MODE. The premise is the invariant that STAT bit 7 is 1 (`TimingOk.statTop`). -/
def Obligations.StatReadsAsItsFiveFields : Prop :=
  ∀ s : State, s.stat.getLsbD 7 = true →
    exec .rdStat s = .next { s with responses := s.responses ++
      [.rdata (1#1 ++ s.stat.extractLsb' 3 4 ++ s.stat.extractLsb' 2 1 ++ s.stat.extractLsb' 0 2)] }

/-- 40_register_bank.md R105, R109, R111, R115, R117, R119, R121, R123, R125: the table's command
word, the byte stored whole, a bare acknowledgement, nothing else changed. -/
def Obligations.PlainRegisterWritesStoreTheByte : Prop :=
  ∀ (s : State) (d : Byte) (n : Nat),
    (decode ⟨0x1FF40, d, n⟩ = .wrLcdc d ∧
      exec (.wrLcdc d) s = .next { s with lcdc := d, responses := s.responses ++ [.ack] }) ∧
    (decode ⟨0x1FF42, d, n⟩ = .wrScy d ∧
      exec (.wrScy d) s = .next { s with scy := d, responses := s.responses ++ [.ack] }) ∧
    (decode ⟨0x1FF43, d, n⟩ = .wrScx d ∧
      exec (.wrScx d) s = .next { s with scx := d, responses := s.responses ++ [.ack] }) ∧
    (decode ⟨0x1FF45, d, n⟩ = .wrLyc d ∧
      exec (.wrLyc d) s = .next { s with lyc := d, responses := s.responses ++ [.ack] }) ∧
    (decode ⟨0x1FF47, d, n⟩ = .wrBgp d ∧
      exec (.wrBgp d) s = .next { s with bgp := d, responses := s.responses ++ [.ack] }) ∧
    (decode ⟨0x1FF48, d, n⟩ = .wrObp0 d ∧
      exec (.wrObp0 d) s = .next { s with obp0 := d, responses := s.responses ++ [.ack] }) ∧
    (decode ⟨0x1FF49, d, n⟩ = .wrObp1 d ∧
      exec (.wrObp1 d) s = .next { s with obp1 := d, responses := s.responses ++ [.ack] }) ∧
    (decode ⟨0x1FF4A, d, n⟩ = .wrWy d ∧
      exec (.wrWy d) s = .next { s with wy := d, responses := s.responses ++ [.ack] }) ∧
    (decode ⟨0x1FF4B, d, n⟩ = .wrWx d ∧
      exec (.wrWx d) s = .next { s with wx := d, responses := s.responses ++ [.ack] })

/-- 40_register_bank.md R107: bits 6:3 come from the data, bits 2:0 and bit 7 stay, nothing else
changes, and no interrupt is requested (60_exceptions.md R262). -/
def Obligations.StatWriteChangesTheEnablesOnly : Prop :=
  ∀ (s : State) (d : Byte) (n : Nat), decode ⟨0x1FF41, d, n⟩ = .wrStat d ∧
    ∃ t : State, exec (.wrStat d) s = .next t ∧
      t = { s with stat := (s.stat &&& 0x87) ||| (d &&& 0x78), responses := s.responses ++ [.ack] } ∧
      t.stat.extractLsb' 3 4 = d.extractLsb' 3 4 ∧ t.stat.extractLsb' 0 3 = s.stat.extractLsb' 0 3 ∧
      t.stat.getLsbD 7 = s.stat.getLsbD 7

/-- 60_exceptions.md R250, 40_register_bank.md R113, R126: the fault is the response, with the
address, the direction and code 1; no state of the block changes and the machine goes on
(notes/assumptions/5.md). -/
def Obligations.AddressingFaultsAreResponses : Prop :=
  ∀ (s : State) (a : Addr) (d : Byte),
    exec (.rdUnmapped a) s = .next { s with responses := s.responses ++ [.fault (.addressing a .read)] } ∧
    exec (.wrUnmapped a d) s = .next { s with responses := s.responses ++ [.fault (.addressing a .write)] } ∧
    exec (.wrLy d) s = .next { s with responses := s.responses ++ [.fault (.addressing 0xFF44 .write)] } ∧
    (∀ dir : Dir, (Fault.addressing a dir).code = 1)

/-- 40_register_bank.md R100, R101: a read returns the byte at the offset and changes nothing; a write
stores the byte there and leaves every other byte and every other piece of state alone. -/
def Obligations.VideoMemoryTransactions : Prop :=
  ∀ (s : State) (o : BitVec 13) (d : Byte),
    exec (.rdVram o) s = .next { s with responses := s.responses ++ [.rdata (s.vram.read o.toNat)] } ∧
    (s.vram.wf → ∃ m : Memory,
      exec (.wrVram o d) s = .next { s with vram := m, responses := s.responses ++ [.ack] } ∧
      m.read o.toNat = d ∧ (∀ a : Nat, a ≠ o.toNat → m.read a = s.vram.read a) ∧ m.wf)

/-- 40_register_bank.md R102, R103: as for video memory, over the 160 offsets of OAM. -/
def Obligations.ObjectMemoryTransactions : Prop :=
  ∀ (s : State) (o : Byte) (d : Byte), o.toNat < 160 →
    exec (.rdOam o) s = .next { s with responses := s.responses ++ [.rdata (s.oam.read o.toNat)] } ∧
    (s.oam.wf → ∃ m : Memory,
      exec (.wrOam o d) s = .next { s with oam := m, responses := s.responses ++ [.ack] } ∧
      m.read o.toNat = d ∧ (∀ a : Nat, a ≠ o.toNat → m.read a = s.oam.read a) ∧ m.wf)

/-- 40_register_bank.md R127, which the spec derives from R100 to R125 and the source states as a
law: WR then RD of one mapped address. -/
def Obligations.BusWriteThenReadReturnsTheByte : Prop :=
  ∀ (s : State) (a : Addr) (d : Byte), MemoryOk s → mapped a = true → a ≠ 0xFF44 →
    s.port = [encodeWrite a d, encodeRead a] →
    ∃ t : State, run 2 s = .next t ∧
      t.responses = s.responses ++ [.ack,
        .rdata (if a = 0xFF41 then (s.stat &&& 0x87) ||| (d &&& 0x78) else d)]

/-- 30_encoding.md R87, 60_exceptions.md R250, R253: every RD and WR completes with one response; the
response is a fault if and only if the address is unmapped or the transaction writes LY, and then it
is the addressing fault of that address, with direction read for RD and write for WR. -/
def Obligations.BusAccessFaultsExactlyWhenUnmappedOrLyWrite : Prop :=
  ∀ (s : State) (t : Transaction) (rest : List Transaction), s.port = t :: rest →
    opField t.cw = 0 ∨ opField t.cw = 1 →
    ∃ (s' : State) (r : Response), step s = .next s' ∧ s'.responses = s.responses ++ [r] ∧
      ((∃ f : Fault, r = .fault f) ↔
        (mapped (addrField t.cw) = false ∨ (opField t.cw = 1 ∧ addrField t.cw = 0xFF44))) ∧
      ∀ f : Fault, r = .fault f →
        f = .addressing (addrField t.cw) (if opField t.cw = 0 then .read else .write)

/-- 40_register_bank.md's preamble and R128, 10_state.md R49: a bus transaction completes and never
touches the counter, the residue, the latches, the hidden flags, WC, LY, the mode and coincidence
bits, FB or the frames. -/
def Obligations.BusTransactionsLeaveTheSchedulerAlone : Prop :=
  ∀ (s : State) (t : Transaction) (rest : List Transaction), s.port = t :: rest →
    opField t.cw = 0 ∨ opField t.cw = 1 →
    ∃ s' : State, step s = .next s' ∧ s'.port = rest ∧ s'.counter = s.counter ∧
      s'.residue = s.residue ∧ s'.vblankPending = s.vblankPending ∧ s'.statPending = s.statPending ∧
      s'.blockStatIrqs = s.blockStatIrqs ∧ s'.eventsReady = s.eventsReady ∧ s'.wc = s.wc ∧
      s'.ly = s.ly ∧ s'.stat.extractLsb' 0 3 = s.stat.extractLsb' 0 3 ∧
      s'.stat.getLsbD 7 = s.stat.getLsbD 7 ∧ s'.fb = s.fb ∧ s'.frameOut = s.frameOut

/-! ### Mode scheduler -/

/-- 41_mode_scheduler.md R151, R153. The premise is the invariant on the counter. -/
def Obligations.SchedulerWritesTheDerivedLine : Prop :=
  ∀ s : State, s.counter < 70224 →
    (schedStep s).ly.toNat = s.counter / 456 ∧ (schedStep s).ly.toNat ≤ 153

/-- 41_mode_scheduler.md R159. -/
def Obligations.CoincidenceIsRecomputedEveryStep : Prop :=
  ∀ s : State, (schedStep s).stat.getLsbD 2 = decide ((schedStep s).ly = s.lyc) ∧
    (schedStep s).lyc = s.lyc

/-- 41_mode_scheduler.md R154 to R158, with the compositor's silence in lines 144 to 153, and
10_state.md R27: the step changes neither the enables nor bit 7. -/
def Obligations.ModeChangesOnlyAtTheTransitions : Prop :=
  ∀ s : State,
    (schedStep s).stat.extractLsb' 0 2 =
      (if s.counter / 456 < 144 then
        if s.counter % 456 = 0 then 2
        else if s.counter % 456 = 80 then 3
        else if s.counter % 456 = 252 then 0
        else s.stat.extractLsb' 0 2
      else if s.counter / 456 = 144 ∧ s.counter % 456 = 0 then 1
      else s.stat.extractLsb' 0 2) ∧
    (schedStep s).stat.extractLsb' 3 5 = s.stat.extractLsb' 3 5 ∧
    (144 ≤ s.counter / 456 → (schedStep s).fb = s.fb ∧ (schedStep s).wc = s.wc)

/-- 60_exceptions.md R243: a request succeeds exactly when its enable is set, B is in 3..6 and no
request has succeeded on the scanline; a request that fails changes nothing. -/
def Obligations.StatusRequestSucceedsOnlyWhenEnabledAndFirst : Prop :=
  ∀ (b : Nat) (s : State),
    (3 ≤ b ∧ b ≤ 6 ∧ s.stat.getLsbD b = true ∧ s.blockStatIrqs = false →
      requestStat b s = { s with statPending := true, blockStatIrqs := true }) ∧
    (¬(3 ≤ b ∧ b ≤ 6 ∧ s.stat.getLsbD b = true ∧ s.blockStatIrqs = false) → requestStat b s = s)

/-- 41_mode_scheduler.md R161, which the spec derives from R150 and R243: what one step does to the
status latch and to the suppression flag, whatever the requests of the step. -/
def Obligations.StatusLatchIsSetOncePerStep : Prop :=
  ∀ s : State,
    (schedStep s).statPending = (s.statPending || (statusWanted s && !stillBlocked s)) ∧
    (schedStep s).blockStatIrqs = (stillBlocked s || statusWanted s)

/-- 60_exceptions.md R241, 41_mode_scheduler.md R157 and R166: the quantum that reaches counter 65664
sets the V-blank latch, and no other quantum changes it. -/
def Obligations.VblankLatchSetOnlyAtLine144 : Prop :=
  ∀ s : State, (quantum s).vblankPending = (s.vblankPending || decide ((quantum s).counter = 65664))

/-- 41_mode_scheduler.md R152, 10_state.md R33, 70_reset_and_hazards.md R279: WC after every quantum.
It is 0 at the wrap, what COMPOSE makes it at offset 80 of a visible line, and otherwise what it was.
The premise is the invariant on the position. -/
def Obligations.WindowCounterRestartsAtLineZero : Prop :=
  ∀ s : State, TimingOk s →
    (70224 ≤ s.counter + 4 → (quantum s).wc = 0) ∧
    (∀ l : Nat, l < 144 → s.counter + 4 = 456 * l + 80 → (quantum s).wc = (compose l s).wc) ∧
    (s.counter + 4 < 70224 → (∀ l : Nat, l < 144 → s.counter + 4 ≠ 456 * l + 80) →
      (quantum s).wc = s.wc)

/-- 60_exceptions.md R261, which the spec derives from R243 and R244: once a request has succeeded,
no quantum on the same scanline sets the latch. -/
def Obligations.OneStatusInterruptPerScanline : Prop :=
  ∀ (k : Nat) (s : State), s.counter < 70224 → s.ly.toNat = s.counter / 456 →
    s.counter % 456 + 4 * k < 456 → s.blockStatIrqs = true →
    (quanta k s).statPending = s.statPending ∧ (quanta k s).blockStatIrqs = true

/-- 41_mode_scheduler.md R162, 70_reset_and_hazards.md R283: after an ADV the timing part of the state
depends on the timing part before it alone, not on LCDC, the scroll and window registers, the
palettes, WC, VRAM, OAM or FB. -/
def Obligations.TimingIgnoresTheDisplay : Prop :=
  ∀ (n : Nat) (s u : State), s.timing = u.timing →
    ∃ s' u' : State, exec (.adv n) s = .next s' ∧ exec (.adv n) u = .next u' ∧ s'.timing = u'.timing

/-! ### Compositor -/

/-- 42_compositor.md R191, with R200 and R203 which the spec derives: where a tile's data are, and
that every fetch lies inside VRAM. -/
def Obligations.TileFetchesStayInsideVideoMemory : Prop :=
  (∀ (lcdc idx : Byte) (r : Nat), r < 8 →
    tileBase lcdc idx =
      (if lcdc.getLsbD 4 = false ∧ idx.toNat < 0x80 then 0x1000 + 16 * idx.toNat else 16 * idx.toNat) ∧
    tileBase lcdc idx + 2 * r + 1 < 0x1800) ∧
  (∀ (select : Bool) (y slot : Nat), y < 256 → slot < 32 →
    0x1800 ≤ mapEntry (mapBase select) y slot ∧ mapEntry (mapBase select) y slot < 0x2000)

/-- 42_compositor.md R192, R193, R199: a colour index is a 2-bit value, bit 1 from the high plane and
bit 0 from the low plane, and selects its bit pair of the palette. -/
def Obligations.ColourIndexAndPalette : Prop :=
  (∀ (lo hi : Byte) (c : Nat), c < 8 → colour lo hi c < 4 ∧
    (colour lo hi c).testBit 0 = lo.getLsbD (7 - c) ∧ (colour lo hi c).testBit 1 = hi.getLsbD (7 - c)) ∧
  (∀ (bgp : Byte) (ci j : Nat), ci < 4 → j < 2 → (shade bgp ci).getLsbD j = bgp.getLsbD (2 * ci + j))

/-- 42_compositor.md R195, R197, R201, R202, R204: the pixel-by-pixel procedure of R180 gives every
screen column the shade of its window column where the window covers it, else of its background
column, else what it held. -/
def Obligations.LineShadesColumnByColumn : Prop :=
  ∀ (s : State) (ly x : Nat), ly < 144 → x < 160 →
    (compose ly s).fb.pixel ly x =
      if s.lcdc.getLsbD 7 = true then
        if s.lcdc.getLsbD 5 = true ∧ s.wy.toNat ≤ ly ∧ s.wx.toNat ≤ x + 7 then
          layerShade s (if s.lcdc.getLsbD 6 then 0x1C00 else 0x1800) s.wc.toNat (x + 7 - s.wx.toNat)
        else if s.lcdc.getLsbD 0 = true then
          layerShade s (if s.lcdc.getLsbD 3 then 0x1C00 else 0x1800) ((s.scy.toNat + ly) % 256)
            ((x + s.scx.toNat) % 256)
        else s.fb.pixel ly x
      else s.fb.pixel ly x

/-- 42_compositor.md R196. -/
def Obligations.WindowCounterAdvancesOnlyWhenShown : Prop :=
  ∀ (s : State) (ly : Nat),
    (compose ly s).wc =
      if s.lcdc.getLsbD 7 = true ∧ s.lcdc.getLsbD 5 = true ∧ s.wy.toNat ≤ ly ∧ s.wx.toNat < 167 then
        s.wc + 1
      else s.wc

/-- 42_compositor.md R198: COMPOSE writes only FB row `ly` and WC, and reads neither OAM nor the
object palettes. -/
def Obligations.ComposeWritesOnlyItsRowAndTheWindowCounter : Prop :=
  ∀ (s : State) (ly : Nat),
    compose ly s = { s with fb := (compose ly s).fb, wc := (compose ly s).wc } ∧
    (∀ y x : Nat, y ≠ ly → (compose ly s).fb.pixel y x = s.fb.pixel y x) ∧
    ∀ (m : Memory) (a b : Byte), compose ly { s with oam := m, obp0 := a, obp1 := b } =
      { compose ly s with oam := m, obp0 := a, obp1 := b }

/-- 42_compositor.md R181. -/
def Obligations.ComposeDoesNothingWithTheDisplayOff : Prop :=
  ∀ (s : State) (ly : Nat), s.lcdc.getLsbD 7 = false → compose ly s = s

/-- 00_scope.md R4, 42_compositor.md R198: no ADV reads OAM or the object palettes. -/
def Obligations.AdvanceIgnoresObjectState : Prop :=
  ∀ (n : Nat) (s : State) (m : Memory) (a b : Byte),
    ∃ t : State, exec (.adv n) s = .next t ∧
      exec (.adv n) { s with oam := m, obp0 := a, obp1 := b } =
        .next { t with oam := m, obp0 := a, obp1 := b }

/-! ### Frame pump -/

/-- 43_frame_pump.md R220: the command word, and ADV completes in every state, with the quanta its
total calls for and the remainder kept. -/
def Obligations.AdvanceRunsItsQuantaAndKeepsTheRemainder : Prop :=
  ∀ (n : Nat) (s : State) (a : Addr) (d : Byte), decode ⟨commandWord 2 a, d, n⟩ = .adv n ∧
    ∃ t : State, t = quanta ((s.residue + n) / 4) { s with residue := (s.residue + n) % 4 } ∧
    t.residue = (s.residue + n) % 4 ∧
    exec (.adv n) s = .next { t with responses := s.responses ++ [.ack] }

/-- What an ADV leaves alone (10_state.md R22, R27, R42, R43; 30_encoding.md R80): the registers and
enables that only the bus writes, both memory regions, and what the host still presents. -/
def Obligations.AdvanceLeavesBusStateAlone : Prop :=
  ∀ (n : Nat) (s : State), ∃ t : State, exec (.adv n) s = .next t ∧
    t.lcdc = s.lcdc ∧ t.scy = s.scy ∧ t.scx = s.scx ∧ t.lyc = s.lyc ∧ t.bgp = s.bgp ∧
    t.obp0 = s.obp0 ∧ t.obp1 = s.obp1 ∧ t.wy = s.wy ∧ t.wx = s.wx ∧
    t.stat.extractLsb' 3 5 = s.stat.extractLsb' 3 5 ∧ (∀ a : Nat, t.vram.read a = s.vram.read a) ∧
    (∀ a : Nat, t.oam.read a = s.oam.read a) ∧ t.port = s.port ∧ t.responses = s.responses ++ [.ack]

/-- 43_frame_pump.md R221, R222. The premise is the invariant on the counter. -/
def Obligations.QuantumAdvancesTheCounterModuloTheFrame : Prop :=
  ∀ s : State, s.counter < 70224 → (quantum s).counter = (s.counter + 4) % 70224

/-- 43_frame_pump.md R223 to R226: a hand-off at the wrap and at no other quantum. The premise is the
invariant on the counter. -/
def Obligations.HandoffHappensAtTheWrapOnly : Prop :=
  ∀ s : State, s.counter < 70224 →
    (70224 ≤ s.counter + 4 →
      (quantum s).frameOut = s.frameOut ++ [s.fb] ∧ (quantum s).fb = Frame.blank ∧
      (quantum s).eventsReady = true) ∧
    (s.counter + 4 < 70224 →
      (quantum s).frameOut = s.frameOut ∧ (quantum s).eventsReady = s.eventsReady)

/-- 43_frame_pump.md R232, which the spec derives: two ADVs do what one ADV of their sum does, but for
the acknowledgements. -/
def Obligations.AdvanceDependsOnTheTotalOnly : Prop :=
  ∀ (a b : Nat) (s : State), ∃ t u v : State,
    exec (.adv a) s = .next t ∧ exec (.adv b) t = .next u ∧ exec (.adv (a + b)) s = .next v ∧
    { u with responses := v.responses } = v

/-- 43_frame_pump.md R230, which the spec derives. The premise is the invariant on the counter. -/
def Obligations.AdvanceCountsFrames : Prop :=
  ∀ (n : Nat) (s : State), s.counter < 70224 → ∃ t : State, exec (.adv n) s = .next t ∧
    t.counter = (s.counter + 4 * ((s.residue + n) / 4)) % 70224 ∧
    t.frameOut.length = s.frameOut.length + (s.counter + 4 * ((s.residue + n) / 4)) / 70224

/-- 41_mode_scheduler.md R155, R158, R167, 42_compositor.md R180, 43_frame_pump.md R225, 10_state.md
R44: FB after every quantum. It is blank at the wrap, what COMPOSE makes it at the mode-3 entry of a
visible line, and otherwise what it was. The premise is the invariant on the position. -/
def Obligations.FrameBufferChangesOnlyAtDrawOrWrap : Prop :=
  ∀ s : State, TimingOk s →
    (70224 ≤ s.counter + 4 → (quantum s).fb = Frame.blank) ∧
    (∀ l : Nat, l < 144 → s.counter + 4 = 456 * l + 80 → (quantum s).fb = (compose l s).fb) ∧
    (s.counter + 4 < 70224 → (∀ l : Nat, l < 144 → s.counter + 4 ≠ 456 * l + 80) →
      (quantum s).fb = s.fb)

/-- 43_frame_pump.md R224: a frame already emitted, and a response already given, is never altered. -/
def Obligations.EmittedFramesAreNeverChanged : Prop :=
  ∀ s t : State, step s = .next t →
    (∃ fs : List Frame, t.frameOut = s.frameOut ++ fs) ∧
    ∃ rs : List Response, t.responses = s.responses ++ rs

/-- 70_reset_and_hazards.md R273, which the spec derives: with the display off and FB at the lightest
shade, every frame an ADV emits is all shade 0. -/
def Obligations.FramesAreBlankWhileTheDisplayIsOff : Prop :=
  ∀ (n : Nat) (s : State), s.lcdc.getLsbD 7 = false → s.fb = Frame.blank → ∃ (t : State) (k : Nat),
    exec (.adv n) s = .next t ∧ t.fb = Frame.blank ∧
    t.frameOut = s.frameOut ++ List.replicate k Frame.blank

/-- 43_frame_pump.md R227: the command word, the flag returned and cleared, nothing else changed. -/
def Obligations.TakeevReadsAndClearsTheFlag : Prop :=
  ∀ (s : State) (a : Addr) (d : Byte) (n : Nat), decode ⟨commandWord 4 a, d, n⟩ = .takeev ∧
    exec .takeev s = .next { s with
    eventsReady := false, responses := s.responses ++ [.ev (if s.eventsReady then 1 else 0)] }

/-- 60_exceptions.md R244, R245: the command word, both latches returned and cleared, nothing else
changed (the suppression flag least of all). -/
def Obligations.PollReadsAndClearsBothLatches : Prop :=
  ∀ (s : State) (a : Addr) (d : Byte) (n : Nat), decode ⟨commandWord 3 a, d, n⟩ = .poll ∧
    exec .poll s = .next { s with
    vblankPending := false, statPending := false,
    responses := s.responses ++
      [.irq ((if s.vblankPending then 2 else 0) + (if s.statPending then 1 else 0))] }

/-- 10_state.md R36, R37, R41: a latch is cleared by POLL or RESET only, and events_ready by TAKEEV
or RESET only. -/
def Obligations.LatchesAreClearedOnlyByTheirCommands : Prop :=
  ∀ (i : Instr) (s t : State), exec i s = .next t → i ≠ .reset →
    (i ≠ .poll → (s.vblankPending = true → t.vblankPending = true) ∧
      (s.statPending = true → t.statPending = true)) ∧
    (i ≠ .takeev → s.eventsReady = true → t.eventsReady = true)

/-- 60_exceptions.md R256, 10_state.md R39, R40: only ADV and RESET move the counter or the residue. -/
def Obligations.CounterMovesOnlyByAdvanceOrReset : Prop :=
  ∀ (i : Instr) (s t : State), exec i s = .next t → i ≠ .reset → (∀ n : Nat, i ≠ .adv n) →
    t.counter = s.counter ∧ t.residue = s.residue

/-! ### Reset -/

/-- 10_state.md R47, field by field. -/
def Obligations.ResetStateHoldsTheTabledValues : Prop :=
  State.reset.lcdc = 0x00 ∧ State.reset.stat = 0x80 ∧ State.reset.scy = 0x00 ∧ State.reset.scx = 0x00 ∧
  State.reset.ly = 0x00 ∧ State.reset.lyc = 0x00 ∧ State.reset.bgp = 0x00 ∧ State.reset.obp0 = 0x00 ∧
  State.reset.obp1 = 0x00 ∧ State.reset.wy = 0x00 ∧ State.reset.wx = 0x00 ∧ State.reset.wc = 0x00 ∧
  State.reset.vblankPending = false ∧ State.reset.statPending = false ∧
  State.reset.blockStatIrqs = false ∧ State.reset.counter = 0 ∧ State.reset.residue = 0 ∧
  State.reset.eventsReady = false ∧ (∀ a : Nat, State.reset.vram.read a = 0) ∧
  (∀ a : Nat, State.reset.oam.read a = 0) ∧ (∀ y x : Nat, State.reset.fb.pixel y x = 0)

/-- 43_frame_pump.md R229: from every state, RESET gives every piece of the block's state its reset
value, emits no frame and answers with an acknowledgement. That what the host still presents stays is
the model's choice (notes/assumptions/4.md). -/
def Obligations.ResetCommandRestoresTheResetValues : Prop :=
  ∀ (s : State) (a : Addr) (d : Byte) (n : Nat), decode ⟨commandWord 5 a, d, n⟩ = .reset ∧
    exec .reset s = .next { State.reset with
    port := s.port, responses := s.responses ++ [.ack], frameOut := s.frameOut }

/-- 70_reset_and_hazards.md R272, R284, 41_mode_scheduler.md R164 (which rest on the spec's decisions
D7 and D32): MODE stays 0 up to offset 76 of the first line and becomes 3 at offset 80; COINCIDENCE
is 1 from the first quantum; nothing is requested. -/
def Obligations.FirstLineAfterReset : Prop :=
  (∀ k : Nat, 1 ≤ k → k < 20 → (quanta k State.reset).counter = 4 * k ∧
    (quanta k State.reset).stat = 0x84 ∧ (quanta k State.reset).statPending = false) ∧
  (quanta 20 State.reset).stat = 0x87

/-- 41_mode_scheduler.md R166 and the example of 60_exceptions.md R245: within the first frame the
V-blank latch is set exactly from cycle 65664 on. -/
def Obligations.FirstVblankAfterReset : Prop :=
  ∀ n : Nat, n < 70224 → ∃ t : State, exec (.adv n) State.reset = .next t ∧
    t.vblankPending = decide (65664 ≤ n) ∧ t.statPending = false

/-! ### Invariants -/

/-- The reset state meets every invariant. -/
def Obligations.ResetMeetsTheInvariants : Prop :=
  TimingOk State.reset ∧ MemoryOk State.reset ∧ ScreenOk State.reset

/-- 10_state.md R28, R40, R46, R48: every step keeps the counter aligned and in the frame, the residue
below a quantum, LY equal to the line, STAT bit 7 at 1 and the mode at its table value. -/
def Obligations.EveryStepKeepsTheTiming : Prop :=
  ∀ s t : State, TimingOk s → step s = .next t → TimingOk t

/-- 10_state.md R42, R43: every step keeps both regions inside their sizes. That a region is a
canonical list, which every step keeps too, is the model's choice of form (notes/assumptions/11.md). -/
def Obligations.EveryStepKeepsTheMemoryForm : Prop :=
  ∀ s t : State, MemoryOk s → step s = .next t → MemoryOk t

/-- 42_compositor.md R196, R197, 43_frame_pump.md R225 and 92_eei_decisions.md D29: WC never passes the
number of lines composed in the frame, and a row not composed yet is at the lightest shade. -/
def Obligations.EveryStepKeepsTheScreen : Prop :=
  ∀ s t : State, TimingOk s → ScreenOk s → step s = .next t → ScreenOk t
end

