-- ==== Sys2Proof/Laws/State.lean ====
section
/-! SUPPORT. One lemma per field per update of the state, so that no proof unfolds a record update:
first the plain updates, then what each operation of the block's own step leaves alone. -/

namespace Sys2Proof.Machine

/-! ### `respond` -/

@[simp] theorem respond_lcdc (r : Response) (s : State) : (respond r s).lcdc = s.lcdc := rfl
@[simp] theorem respond_stat (r : Response) (s : State) : (respond r s).stat = s.stat := rfl
@[simp] theorem respond_scy (r : Response) (s : State) : (respond r s).scy = s.scy := rfl
@[simp] theorem respond_scx (r : Response) (s : State) : (respond r s).scx = s.scx := rfl
@[simp] theorem respond_ly (r : Response) (s : State) : (respond r s).ly = s.ly := rfl
@[simp] theorem respond_lyc (r : Response) (s : State) : (respond r s).lyc = s.lyc := rfl
@[simp] theorem respond_bgp (r : Response) (s : State) : (respond r s).bgp = s.bgp := rfl
@[simp] theorem respond_obp0 (r : Response) (s : State) : (respond r s).obp0 = s.obp0 := rfl
@[simp] theorem respond_obp1 (r : Response) (s : State) : (respond r s).obp1 = s.obp1 := rfl
@[simp] theorem respond_wy (r : Response) (s : State) : (respond r s).wy = s.wy := rfl
@[simp] theorem respond_wx (r : Response) (s : State) : (respond r s).wx = s.wx := rfl
@[simp] theorem respond_wc (r : Response) (s : State) : (respond r s).wc = s.wc := rfl
@[simp] theorem respond_vblankPending (r : Response) (s : State) : (respond r s).vblankPending = s.vblankPending := rfl
@[simp] theorem respond_statPending (r : Response) (s : State) : (respond r s).statPending = s.statPending := rfl
@[simp] theorem respond_blockStatIrqs (r : Response) (s : State) : (respond r s).blockStatIrqs = s.blockStatIrqs := rfl
@[simp] theorem respond_eventsReady (r : Response) (s : State) : (respond r s).eventsReady = s.eventsReady := rfl
@[simp] theorem respond_counter (r : Response) (s : State) : (respond r s).counter = s.counter := rfl
@[simp] theorem respond_residue (r : Response) (s : State) : (respond r s).residue = s.residue := rfl
@[simp] theorem respond_vram (r : Response) (s : State) : (respond r s).vram = s.vram := rfl
@[simp] theorem respond_oam (r : Response) (s : State) : (respond r s).oam = s.oam := rfl
@[simp] theorem respond_fb (r : Response) (s : State) : (respond r s).fb = s.fb := rfl
@[simp] theorem respond_port (r : Response) (s : State) : (respond r s).port = s.port := rfl
@[simp] theorem respond_responses (r : Response) (s : State) : (respond r s).responses = s.responses ++ [r] := rfl
@[simp] theorem respond_frameOut (r : Response) (s : State) : (respond r s).frameOut = s.frameOut := rfl

/-! ### `clearLatches` -/

@[simp] theorem clearLatches_lcdc (s : State) : (clearLatches s).lcdc = s.lcdc := rfl
@[simp] theorem clearLatches_stat (s : State) : (clearLatches s).stat = s.stat := rfl
@[simp] theorem clearLatches_scy (s : State) : (clearLatches s).scy = s.scy := rfl
@[simp] theorem clearLatches_scx (s : State) : (clearLatches s).scx = s.scx := rfl
@[simp] theorem clearLatches_ly (s : State) : (clearLatches s).ly = s.ly := rfl
@[simp] theorem clearLatches_lyc (s : State) : (clearLatches s).lyc = s.lyc := rfl
@[simp] theorem clearLatches_bgp (s : State) : (clearLatches s).bgp = s.bgp := rfl
@[simp] theorem clearLatches_obp0 (s : State) : (clearLatches s).obp0 = s.obp0 := rfl
@[simp] theorem clearLatches_obp1 (s : State) : (clearLatches s).obp1 = s.obp1 := rfl
@[simp] theorem clearLatches_wy (s : State) : (clearLatches s).wy = s.wy := rfl
@[simp] theorem clearLatches_wx (s : State) : (clearLatches s).wx = s.wx := rfl
@[simp] theorem clearLatches_wc (s : State) : (clearLatches s).wc = s.wc := rfl
@[simp] theorem clearLatches_vblankPending (s : State) : (clearLatches s).vblankPending = false := rfl
@[simp] theorem clearLatches_statPending (s : State) : (clearLatches s).statPending = false := rfl
@[simp] theorem clearLatches_blockStatIrqs (s : State) : (clearLatches s).blockStatIrqs = s.blockStatIrqs := rfl
@[simp] theorem clearLatches_eventsReady (s : State) : (clearLatches s).eventsReady = s.eventsReady := rfl
@[simp] theorem clearLatches_counter (s : State) : (clearLatches s).counter = s.counter := rfl
@[simp] theorem clearLatches_residue (s : State) : (clearLatches s).residue = s.residue := rfl
@[simp] theorem clearLatches_vram (s : State) : (clearLatches s).vram = s.vram := rfl
@[simp] theorem clearLatches_oam (s : State) : (clearLatches s).oam = s.oam := rfl
@[simp] theorem clearLatches_fb (s : State) : (clearLatches s).fb = s.fb := rfl
@[simp] theorem clearLatches_port (s : State) : (clearLatches s).port = s.port := rfl
@[simp] theorem clearLatches_responses (s : State) : (clearLatches s).responses = s.responses := rfl
@[simp] theorem clearLatches_frameOut (s : State) : (clearLatches s).frameOut = s.frameOut := rfl

/-! ### `setMode` -/

@[simp] theorem setMode_lcdc (m : Mode) (s : State) : (setMode m s).lcdc = s.lcdc := rfl
@[simp] theorem setMode_stat (m : Mode) (s : State) : (setMode m s).stat = withMode s.stat m := rfl
@[simp] theorem setMode_scy (m : Mode) (s : State) : (setMode m s).scy = s.scy := rfl
@[simp] theorem setMode_scx (m : Mode) (s : State) : (setMode m s).scx = s.scx := rfl
@[simp] theorem setMode_ly (m : Mode) (s : State) : (setMode m s).ly = s.ly := rfl
@[simp] theorem setMode_lyc (m : Mode) (s : State) : (setMode m s).lyc = s.lyc := rfl
@[simp] theorem setMode_bgp (m : Mode) (s : State) : (setMode m s).bgp = s.bgp := rfl
@[simp] theorem setMode_obp0 (m : Mode) (s : State) : (setMode m s).obp0 = s.obp0 := rfl
@[simp] theorem setMode_obp1 (m : Mode) (s : State) : (setMode m s).obp1 = s.obp1 := rfl
@[simp] theorem setMode_wy (m : Mode) (s : State) : (setMode m s).wy = s.wy := rfl
@[simp] theorem setMode_wx (m : Mode) (s : State) : (setMode m s).wx = s.wx := rfl
@[simp] theorem setMode_wc (m : Mode) (s : State) : (setMode m s).wc = s.wc := rfl
@[simp] theorem setMode_vblankPending (m : Mode) (s : State) : (setMode m s).vblankPending = s.vblankPending := rfl
@[simp] theorem setMode_statPending (m : Mode) (s : State) : (setMode m s).statPending = s.statPending := rfl
@[simp] theorem setMode_blockStatIrqs (m : Mode) (s : State) : (setMode m s).blockStatIrqs = s.blockStatIrqs := rfl
@[simp] theorem setMode_eventsReady (m : Mode) (s : State) : (setMode m s).eventsReady = s.eventsReady := rfl
@[simp] theorem setMode_counter (m : Mode) (s : State) : (setMode m s).counter = s.counter := rfl
@[simp] theorem setMode_residue (m : Mode) (s : State) : (setMode m s).residue = s.residue := rfl
@[simp] theorem setMode_vram (m : Mode) (s : State) : (setMode m s).vram = s.vram := rfl
@[simp] theorem setMode_oam (m : Mode) (s : State) : (setMode m s).oam = s.oam := rfl
@[simp] theorem setMode_fb (m : Mode) (s : State) : (setMode m s).fb = s.fb := rfl
@[simp] theorem setMode_port (m : Mode) (s : State) : (setMode m s).port = s.port := rfl
@[simp] theorem setMode_responses (m : Mode) (s : State) : (setMode m s).responses = s.responses := rfl
@[simp] theorem setMode_frameOut (m : Mode) (s : State) : (setMode m s).frameOut = s.frameOut := rfl

/-! ### `updateCoincidence` -/

@[simp] theorem updateCoincidence_lcdc (s : State) : (updateCoincidence s).lcdc = s.lcdc := rfl
@[simp] theorem updateCoincidence_stat (s : State) : (updateCoincidence s).stat = withCoincidence s.stat (coincides s.ly s.lyc) := rfl
@[simp] theorem updateCoincidence_scy (s : State) : (updateCoincidence s).scy = s.scy := rfl
@[simp] theorem updateCoincidence_scx (s : State) : (updateCoincidence s).scx = s.scx := rfl
@[simp] theorem updateCoincidence_ly (s : State) : (updateCoincidence s).ly = s.ly := rfl
@[simp] theorem updateCoincidence_lyc (s : State) : (updateCoincidence s).lyc = s.lyc := rfl
@[simp] theorem updateCoincidence_bgp (s : State) : (updateCoincidence s).bgp = s.bgp := rfl
@[simp] theorem updateCoincidence_obp0 (s : State) : (updateCoincidence s).obp0 = s.obp0 := rfl
@[simp] theorem updateCoincidence_obp1 (s : State) : (updateCoincidence s).obp1 = s.obp1 := rfl
@[simp] theorem updateCoincidence_wy (s : State) : (updateCoincidence s).wy = s.wy := rfl
@[simp] theorem updateCoincidence_wx (s : State) : (updateCoincidence s).wx = s.wx := rfl
@[simp] theorem updateCoincidence_wc (s : State) : (updateCoincidence s).wc = s.wc := rfl
@[simp] theorem updateCoincidence_vblankPending (s : State) : (updateCoincidence s).vblankPending = s.vblankPending := rfl
@[simp] theorem updateCoincidence_statPending (s : State) : (updateCoincidence s).statPending = s.statPending := rfl
@[simp] theorem updateCoincidence_blockStatIrqs (s : State) : (updateCoincidence s).blockStatIrqs = s.blockStatIrqs := rfl
@[simp] theorem updateCoincidence_eventsReady (s : State) : (updateCoincidence s).eventsReady = s.eventsReady := rfl
@[simp] theorem updateCoincidence_counter (s : State) : (updateCoincidence s).counter = s.counter := rfl
@[simp] theorem updateCoincidence_residue (s : State) : (updateCoincidence s).residue = s.residue := rfl
@[simp] theorem updateCoincidence_vram (s : State) : (updateCoincidence s).vram = s.vram := rfl
@[simp] theorem updateCoincidence_oam (s : State) : (updateCoincidence s).oam = s.oam := rfl
@[simp] theorem updateCoincidence_fb (s : State) : (updateCoincidence s).fb = s.fb := rfl
@[simp] theorem updateCoincidence_port (s : State) : (updateCoincidence s).port = s.port := rfl
@[simp] theorem updateCoincidence_responses (s : State) : (updateCoincidence s).responses = s.responses := rfl
@[simp] theorem updateCoincidence_frameOut (s : State) : (updateCoincidence s).frameOut = s.frameOut := rfl

/-! ### `handoff` -/

@[simp] theorem handoff_lcdc (s : State) : (handoff s).lcdc = s.lcdc := rfl
@[simp] theorem handoff_stat (s : State) : (handoff s).stat = s.stat := rfl
@[simp] theorem handoff_scy (s : State) : (handoff s).scy = s.scy := rfl
@[simp] theorem handoff_scx (s : State) : (handoff s).scx = s.scx := rfl
@[simp] theorem handoff_ly (s : State) : (handoff s).ly = s.ly := rfl
@[simp] theorem handoff_lyc (s : State) : (handoff s).lyc = s.lyc := rfl
@[simp] theorem handoff_bgp (s : State) : (handoff s).bgp = s.bgp := rfl
@[simp] theorem handoff_obp0 (s : State) : (handoff s).obp0 = s.obp0 := rfl
@[simp] theorem handoff_obp1 (s : State) : (handoff s).obp1 = s.obp1 := rfl
@[simp] theorem handoff_wy (s : State) : (handoff s).wy = s.wy := rfl
@[simp] theorem handoff_wx (s : State) : (handoff s).wx = s.wx := rfl
@[simp] theorem handoff_wc (s : State) : (handoff s).wc = s.wc := rfl
@[simp] theorem handoff_vblankPending (s : State) : (handoff s).vblankPending = s.vblankPending := rfl
@[simp] theorem handoff_statPending (s : State) : (handoff s).statPending = s.statPending := rfl
@[simp] theorem handoff_blockStatIrqs (s : State) : (handoff s).blockStatIrqs = s.blockStatIrqs := rfl
@[simp] theorem handoff_eventsReady (s : State) : (handoff s).eventsReady = true := rfl
@[simp] theorem handoff_counter (s : State) : (handoff s).counter = s.counter := rfl
@[simp] theorem handoff_residue (s : State) : (handoff s).residue = s.residue := rfl
@[simp] theorem handoff_vram (s : State) : (handoff s).vram = s.vram := rfl
@[simp] theorem handoff_oam (s : State) : (handoff s).oam = s.oam := rfl
@[simp] theorem handoff_fb (s : State) : (handoff s).fb = Frame.blank := rfl
@[simp] theorem handoff_port (s : State) : (handoff s).port = s.port := rfl
@[simp] theorem handoff_responses (s : State) : (handoff s).responses = s.responses := rfl
@[simp] theorem handoff_frameOut (s : State) : (handoff s).frameOut = s.frameOut ++ [s.fb] := rfl

/-! ### `present` -/

@[simp] theorem present_lcdc (t : Transaction) (s : State) : (present t s).lcdc = s.lcdc := rfl
@[simp] theorem present_stat (t : Transaction) (s : State) : (present t s).stat = s.stat := rfl
@[simp] theorem present_scy (t : Transaction) (s : State) : (present t s).scy = s.scy := rfl
@[simp] theorem present_scx (t : Transaction) (s : State) : (present t s).scx = s.scx := rfl
@[simp] theorem present_ly (t : Transaction) (s : State) : (present t s).ly = s.ly := rfl
@[simp] theorem present_lyc (t : Transaction) (s : State) : (present t s).lyc = s.lyc := rfl
@[simp] theorem present_bgp (t : Transaction) (s : State) : (present t s).bgp = s.bgp := rfl
@[simp] theorem present_obp0 (t : Transaction) (s : State) : (present t s).obp0 = s.obp0 := rfl
@[simp] theorem present_obp1 (t : Transaction) (s : State) : (present t s).obp1 = s.obp1 := rfl
@[simp] theorem present_wy (t : Transaction) (s : State) : (present t s).wy = s.wy := rfl
@[simp] theorem present_wx (t : Transaction) (s : State) : (present t s).wx = s.wx := rfl
@[simp] theorem present_wc (t : Transaction) (s : State) : (present t s).wc = s.wc := rfl
@[simp] theorem present_vblankPending (t : Transaction) (s : State) : (present t s).vblankPending = s.vblankPending := rfl
@[simp] theorem present_statPending (t : Transaction) (s : State) : (present t s).statPending = s.statPending := rfl
@[simp] theorem present_blockStatIrqs (t : Transaction) (s : State) : (present t s).blockStatIrqs = s.blockStatIrqs := rfl
@[simp] theorem present_eventsReady (t : Transaction) (s : State) : (present t s).eventsReady = s.eventsReady := rfl
@[simp] theorem present_counter (t : Transaction) (s : State) : (present t s).counter = s.counter := rfl
@[simp] theorem present_residue (t : Transaction) (s : State) : (present t s).residue = s.residue := rfl
@[simp] theorem present_vram (t : Transaction) (s : State) : (present t s).vram = s.vram := rfl
@[simp] theorem present_oam (t : Transaction) (s : State) : (present t s).oam = s.oam := rfl
@[simp] theorem present_fb (t : Transaction) (s : State) : (present t s).fb = s.fb := rfl
@[simp] theorem present_port (t : Transaction) (s : State) : (present t s).port = t :: s.port := rfl
@[simp] theorem present_responses (t : Transaction) (s : State) : (present t s).responses = s.responses := rfl
@[simp] theorem present_frameOut (t : Transaction) (s : State) : (present t s).frameOut = s.frameOut := rfl

/-! ### `resetBlock` -/

@[simp] theorem resetBlock_lcdc (s : State) : (resetBlock s).lcdc = State.reset.lcdc := rfl
@[simp] theorem resetBlock_stat (s : State) : (resetBlock s).stat = State.reset.stat := rfl
@[simp] theorem resetBlock_scy (s : State) : (resetBlock s).scy = State.reset.scy := rfl
@[simp] theorem resetBlock_scx (s : State) : (resetBlock s).scx = State.reset.scx := rfl
@[simp] theorem resetBlock_ly (s : State) : (resetBlock s).ly = State.reset.ly := rfl
@[simp] theorem resetBlock_lyc (s : State) : (resetBlock s).lyc = State.reset.lyc := rfl
@[simp] theorem resetBlock_bgp (s : State) : (resetBlock s).bgp = State.reset.bgp := rfl
@[simp] theorem resetBlock_obp0 (s : State) : (resetBlock s).obp0 = State.reset.obp0 := rfl
@[simp] theorem resetBlock_obp1 (s : State) : (resetBlock s).obp1 = State.reset.obp1 := rfl
@[simp] theorem resetBlock_wy (s : State) : (resetBlock s).wy = State.reset.wy := rfl
@[simp] theorem resetBlock_wx (s : State) : (resetBlock s).wx = State.reset.wx := rfl
@[simp] theorem resetBlock_wc (s : State) : (resetBlock s).wc = State.reset.wc := rfl
@[simp] theorem resetBlock_vblankPending (s : State) : (resetBlock s).vblankPending = State.reset.vblankPending := rfl
@[simp] theorem resetBlock_statPending (s : State) : (resetBlock s).statPending = State.reset.statPending := rfl
@[simp] theorem resetBlock_blockStatIrqs (s : State) : (resetBlock s).blockStatIrqs = State.reset.blockStatIrqs := rfl
@[simp] theorem resetBlock_eventsReady (s : State) : (resetBlock s).eventsReady = State.reset.eventsReady := rfl
@[simp] theorem resetBlock_counter (s : State) : (resetBlock s).counter = State.reset.counter := rfl
@[simp] theorem resetBlock_residue (s : State) : (resetBlock s).residue = State.reset.residue := rfl
@[simp] theorem resetBlock_vram (s : State) : (resetBlock s).vram = State.reset.vram := rfl
@[simp] theorem resetBlock_oam (s : State) : (resetBlock s).oam = State.reset.oam := rfl
@[simp] theorem resetBlock_fb (s : State) : (resetBlock s).fb = State.reset.fb := rfl
@[simp] theorem resetBlock_port (s : State) : (resetBlock s).port = s.port := rfl
@[simp] theorem resetBlock_responses (s : State) : (resetBlock s).responses = s.responses := rfl
@[simp] theorem resetBlock_frameOut (s : State) : (resetBlock s).frameOut = s.frameOut := rfl

/-! ### What `requestStat` leaves alone -/

@[simp] theorem requestStat_lcdc (b : Nat) (s : State) : (requestStat b s).lcdc = s.lcdc :=
  by unfold requestStat; split <;> rfl
@[simp] theorem requestStat_stat (b : Nat) (s : State) : (requestStat b s).stat = s.stat :=
  by unfold requestStat; split <;> rfl
@[simp] theorem requestStat_scy (b : Nat) (s : State) : (requestStat b s).scy = s.scy :=
  by unfold requestStat; split <;> rfl
@[simp] theorem requestStat_scx (b : Nat) (s : State) : (requestStat b s).scx = s.scx :=
  by unfold requestStat; split <;> rfl
@[simp] theorem requestStat_ly (b : Nat) (s : State) : (requestStat b s).ly = s.ly :=
  by unfold requestStat; split <;> rfl
@[simp] theorem requestStat_lyc (b : Nat) (s : State) : (requestStat b s).lyc = s.lyc :=
  by unfold requestStat; split <;> rfl
@[simp] theorem requestStat_bgp (b : Nat) (s : State) : (requestStat b s).bgp = s.bgp :=
  by unfold requestStat; split <;> rfl
@[simp] theorem requestStat_obp0 (b : Nat) (s : State) : (requestStat b s).obp0 = s.obp0 :=
  by unfold requestStat; split <;> rfl
@[simp] theorem requestStat_obp1 (b : Nat) (s : State) : (requestStat b s).obp1 = s.obp1 :=
  by unfold requestStat; split <;> rfl
@[simp] theorem requestStat_wy (b : Nat) (s : State) : (requestStat b s).wy = s.wy :=
  by unfold requestStat; split <;> rfl
@[simp] theorem requestStat_wx (b : Nat) (s : State) : (requestStat b s).wx = s.wx :=
  by unfold requestStat; split <;> rfl
@[simp] theorem requestStat_wc (b : Nat) (s : State) : (requestStat b s).wc = s.wc :=
  by unfold requestStat; split <;> rfl
@[simp] theorem requestStat_vblankPending (b : Nat) (s : State) : (requestStat b s).vblankPending = s.vblankPending :=
  by unfold requestStat; split <;> rfl
@[simp] theorem requestStat_eventsReady (b : Nat) (s : State) : (requestStat b s).eventsReady = s.eventsReady :=
  by unfold requestStat; split <;> rfl
@[simp] theorem requestStat_counter (b : Nat) (s : State) : (requestStat b s).counter = s.counter :=
  by unfold requestStat; split <;> rfl
@[simp] theorem requestStat_residue (b : Nat) (s : State) : (requestStat b s).residue = s.residue :=
  by unfold requestStat; split <;> rfl
@[simp] theorem requestStat_vram (b : Nat) (s : State) : (requestStat b s).vram = s.vram :=
  by unfold requestStat; split <;> rfl
@[simp] theorem requestStat_oam (b : Nat) (s : State) : (requestStat b s).oam = s.oam :=
  by unfold requestStat; split <;> rfl
@[simp] theorem requestStat_fb (b : Nat) (s : State) : (requestStat b s).fb = s.fb :=
  by unfold requestStat; split <;> rfl
@[simp] theorem requestStat_port (b : Nat) (s : State) : (requestStat b s).port = s.port :=
  by unfold requestStat; split <;> rfl
@[simp] theorem requestStat_responses (b : Nat) (s : State) : (requestStat b s).responses = s.responses :=
  by unfold requestStat; split <;> rfl
@[simp] theorem requestStat_frameOut (b : Nat) (s : State) : (requestStat b s).frameOut = s.frameOut :=
  by unfold requestStat; split <;> rfl

/-! ### What `lineChange` leaves alone -/

@[simp] theorem lineChange_lcdc (l : Nat) (s : State) : (lineChange l s).lcdc = s.lcdc :=
  by unfold lineChange; split <;> rfl
@[simp] theorem lineChange_stat (l : Nat) (s : State) : (lineChange l s).stat = s.stat :=
  by unfold lineChange; split <;> rfl
@[simp] theorem lineChange_scy (l : Nat) (s : State) : (lineChange l s).scy = s.scy :=
  by unfold lineChange; split <;> rfl
@[simp] theorem lineChange_scx (l : Nat) (s : State) : (lineChange l s).scx = s.scx :=
  by unfold lineChange; split <;> rfl
@[simp] theorem lineChange_ly (l : Nat) (s : State) : (lineChange l s).ly = s.ly :=
  by unfold lineChange; split <;> rfl
@[simp] theorem lineChange_lyc (l : Nat) (s : State) : (lineChange l s).lyc = s.lyc :=
  by unfold lineChange; split <;> rfl
@[simp] theorem lineChange_bgp (l : Nat) (s : State) : (lineChange l s).bgp = s.bgp :=
  by unfold lineChange; split <;> rfl
@[simp] theorem lineChange_obp0 (l : Nat) (s : State) : (lineChange l s).obp0 = s.obp0 :=
  by unfold lineChange; split <;> rfl
@[simp] theorem lineChange_obp1 (l : Nat) (s : State) : (lineChange l s).obp1 = s.obp1 :=
  by unfold lineChange; split <;> rfl
@[simp] theorem lineChange_wy (l : Nat) (s : State) : (lineChange l s).wy = s.wy :=
  by unfold lineChange; split <;> rfl
@[simp] theorem lineChange_wx (l : Nat) (s : State) : (lineChange l s).wx = s.wx :=
  by unfold lineChange; split <;> rfl
@[simp] theorem lineChange_vblankPending (l : Nat) (s : State) : (lineChange l s).vblankPending = s.vblankPending :=
  by unfold lineChange; split <;> rfl
@[simp] theorem lineChange_statPending (l : Nat) (s : State) : (lineChange l s).statPending = s.statPending :=
  by unfold lineChange; split <;> rfl
@[simp] theorem lineChange_eventsReady (l : Nat) (s : State) : (lineChange l s).eventsReady = s.eventsReady :=
  by unfold lineChange; split <;> rfl
@[simp] theorem lineChange_counter (l : Nat) (s : State) : (lineChange l s).counter = s.counter :=
  by unfold lineChange; split <;> rfl
@[simp] theorem lineChange_residue (l : Nat) (s : State) : (lineChange l s).residue = s.residue :=
  by unfold lineChange; split <;> rfl
@[simp] theorem lineChange_vram (l : Nat) (s : State) : (lineChange l s).vram = s.vram :=
  by unfold lineChange; split <;> rfl
@[simp] theorem lineChange_oam (l : Nat) (s : State) : (lineChange l s).oam = s.oam :=
  by unfold lineChange; split <;> rfl
@[simp] theorem lineChange_fb (l : Nat) (s : State) : (lineChange l s).fb = s.fb :=
  by unfold lineChange; split <;> rfl
@[simp] theorem lineChange_port (l : Nat) (s : State) : (lineChange l s).port = s.port :=
  by unfold lineChange; split <;> rfl
@[simp] theorem lineChange_responses (l : Nat) (s : State) : (lineChange l s).responses = s.responses :=
  by unfold lineChange; split <;> rfl
@[simp] theorem lineChange_frameOut (l : Nat) (s : State) : (lineChange l s).frameOut = s.frameOut :=
  by unfold lineChange; split <;> rfl

/-! ### What `enterLine` leaves alone -/

@[simp] theorem enterLine_lcdc (l : Nat) (s : State) : (enterLine l s).lcdc = s.lcdc := lineChange_lcdc l s
@[simp] theorem enterLine_stat (l : Nat) (s : State) : (enterLine l s).stat = s.stat := lineChange_stat l s
@[simp] theorem enterLine_scy (l : Nat) (s : State) : (enterLine l s).scy = s.scy := lineChange_scy l s
@[simp] theorem enterLine_scx (l : Nat) (s : State) : (enterLine l s).scx = s.scx := lineChange_scx l s
@[simp] theorem enterLine_lyc (l : Nat) (s : State) : (enterLine l s).lyc = s.lyc := lineChange_lyc l s
@[simp] theorem enterLine_bgp (l : Nat) (s : State) : (enterLine l s).bgp = s.bgp := lineChange_bgp l s
@[simp] theorem enterLine_obp0 (l : Nat) (s : State) : (enterLine l s).obp0 = s.obp0 := lineChange_obp0 l s
@[simp] theorem enterLine_obp1 (l : Nat) (s : State) : (enterLine l s).obp1 = s.obp1 := lineChange_obp1 l s
@[simp] theorem enterLine_wy (l : Nat) (s : State) : (enterLine l s).wy = s.wy := lineChange_wy l s
@[simp] theorem enterLine_wx (l : Nat) (s : State) : (enterLine l s).wx = s.wx := lineChange_wx l s
@[simp] theorem enterLine_vblankPending (l : Nat) (s : State) : (enterLine l s).vblankPending = s.vblankPending :=
  lineChange_vblankPending l s
@[simp] theorem enterLine_statPending (l : Nat) (s : State) : (enterLine l s).statPending = s.statPending :=
  lineChange_statPending l s
@[simp] theorem enterLine_eventsReady (l : Nat) (s : State) : (enterLine l s).eventsReady = s.eventsReady :=
  lineChange_eventsReady l s
@[simp] theorem enterLine_counter (l : Nat) (s : State) : (enterLine l s).counter = s.counter :=
  lineChange_counter l s
@[simp] theorem enterLine_residue (l : Nat) (s : State) : (enterLine l s).residue = s.residue :=
  lineChange_residue l s
@[simp] theorem enterLine_vram (l : Nat) (s : State) : (enterLine l s).vram = s.vram := lineChange_vram l s
@[simp] theorem enterLine_oam (l : Nat) (s : State) : (enterLine l s).oam = s.oam := lineChange_oam l s
@[simp] theorem enterLine_fb (l : Nat) (s : State) : (enterLine l s).fb = s.fb := lineChange_fb l s
@[simp] theorem enterLine_port (l : Nat) (s : State) : (enterLine l s).port = s.port := lineChange_port l s
@[simp] theorem enterLine_responses (l : Nat) (s : State) : (enterLine l s).responses = s.responses :=
  lineChange_responses l s
@[simp] theorem enterLine_frameOut (l : Nat) (s : State) : (enterLine l s).frameOut = s.frameOut :=
  lineChange_frameOut l s

/-! ### What `compose` leaves alone -/

@[simp] theorem compose_lcdc (y : Nat) (s : State) : (compose y s).lcdc = s.lcdc :=
  by unfold compose; split <;> rfl
@[simp] theorem compose_stat (y : Nat) (s : State) : (compose y s).stat = s.stat :=
  by unfold compose; split <;> rfl
@[simp] theorem compose_scy (y : Nat) (s : State) : (compose y s).scy = s.scy :=
  by unfold compose; split <;> rfl
@[simp] theorem compose_scx (y : Nat) (s : State) : (compose y s).scx = s.scx :=
  by unfold compose; split <;> rfl
@[simp] theorem compose_ly (y : Nat) (s : State) : (compose y s).ly = s.ly := by unfold compose; split <;> rfl
@[simp] theorem compose_lyc (y : Nat) (s : State) : (compose y s).lyc = s.lyc :=
  by unfold compose; split <;> rfl
@[simp] theorem compose_bgp (y : Nat) (s : State) : (compose y s).bgp = s.bgp :=
  by unfold compose; split <;> rfl
@[simp] theorem compose_obp0 (y : Nat) (s : State) : (compose y s).obp0 = s.obp0 :=
  by unfold compose; split <;> rfl
@[simp] theorem compose_obp1 (y : Nat) (s : State) : (compose y s).obp1 = s.obp1 :=
  by unfold compose; split <;> rfl
@[simp] theorem compose_wy (y : Nat) (s : State) : (compose y s).wy = s.wy := by unfold compose; split <;> rfl
@[simp] theorem compose_wx (y : Nat) (s : State) : (compose y s).wx = s.wx := by unfold compose; split <;> rfl
@[simp] theorem compose_vblankPending (y : Nat) (s : State) : (compose y s).vblankPending = s.vblankPending :=
  by unfold compose; split <;> rfl
@[simp] theorem compose_statPending (y : Nat) (s : State) : (compose y s).statPending = s.statPending :=
  by unfold compose; split <;> rfl
@[simp] theorem compose_blockStatIrqs (y : Nat) (s : State) : (compose y s).blockStatIrqs = s.blockStatIrqs :=
  by unfold compose; split <;> rfl
@[simp] theorem compose_eventsReady (y : Nat) (s : State) : (compose y s).eventsReady = s.eventsReady :=
  by unfold compose; split <;> rfl
@[simp] theorem compose_counter (y : Nat) (s : State) : (compose y s).counter = s.counter :=
  by unfold compose; split <;> rfl
@[simp] theorem compose_residue (y : Nat) (s : State) : (compose y s).residue = s.residue :=
  by unfold compose; split <;> rfl
@[simp] theorem compose_vram (y : Nat) (s : State) : (compose y s).vram = s.vram :=
  by unfold compose; split <;> rfl
@[simp] theorem compose_oam (y : Nat) (s : State) : (compose y s).oam = s.oam :=
  by unfold compose; split <;> rfl
@[simp] theorem compose_port (y : Nat) (s : State) : (compose y s).port = s.port :=
  by unfold compose; split <;> rfl
@[simp] theorem compose_responses (y : Nat) (s : State) : (compose y s).responses = s.responses :=
  by unfold compose; split <;> rfl
@[simp] theorem compose_frameOut (y : Nat) (s : State) : (compose y s).frameOut = s.frameOut :=
  by unfold compose; split <;> rfl

/-! ### What `transition` leaves alone -/

@[simp] theorem transition_lcdc (l k : Nat) (s : State) : (transition l k s).lcdc = s.lcdc :=
  by
  unfold transition; split_ifs <;> simp [enterSearch, enterDraw, enterHblank, enterVblank]
@[simp] theorem transition_scy (l k : Nat) (s : State) : (transition l k s).scy = s.scy :=
  by
  unfold transition; split_ifs <;> simp [enterSearch, enterDraw, enterHblank, enterVblank]
@[simp] theorem transition_scx (l k : Nat) (s : State) : (transition l k s).scx = s.scx :=
  by
  unfold transition; split_ifs <;> simp [enterSearch, enterDraw, enterHblank, enterVblank]
@[simp] theorem transition_ly (l k : Nat) (s : State) : (transition l k s).ly = s.ly :=
  by
  unfold transition; split_ifs <;> simp [enterSearch, enterDraw, enterHblank, enterVblank]
@[simp] theorem transition_lyc (l k : Nat) (s : State) : (transition l k s).lyc = s.lyc :=
  by
  unfold transition; split_ifs <;> simp [enterSearch, enterDraw, enterHblank, enterVblank]
@[simp] theorem transition_bgp (l k : Nat) (s : State) : (transition l k s).bgp = s.bgp :=
  by
  unfold transition; split_ifs <;> simp [enterSearch, enterDraw, enterHblank, enterVblank]
@[simp] theorem transition_obp0 (l k : Nat) (s : State) : (transition l k s).obp0 = s.obp0 :=
  by
  unfold transition; split_ifs <;> simp [enterSearch, enterDraw, enterHblank, enterVblank]
@[simp] theorem transition_obp1 (l k : Nat) (s : State) : (transition l k s).obp1 = s.obp1 :=
  by
  unfold transition; split_ifs <;> simp [enterSearch, enterDraw, enterHblank, enterVblank]
@[simp] theorem transition_wy (l k : Nat) (s : State) : (transition l k s).wy = s.wy :=
  by
  unfold transition; split_ifs <;> simp [enterSearch, enterDraw, enterHblank, enterVblank]
@[simp] theorem transition_wx (l k : Nat) (s : State) : (transition l k s).wx = s.wx :=
  by
  unfold transition; split_ifs <;> simp [enterSearch, enterDraw, enterHblank, enterVblank]
@[simp] theorem transition_eventsReady (l k : Nat) (s : State) : (transition l k s).eventsReady = s.eventsReady :=
  by
  unfold transition; split_ifs <;> simp [enterSearch, enterDraw, enterHblank, enterVblank]
@[simp] theorem transition_counter (l k : Nat) (s : State) : (transition l k s).counter = s.counter :=
  by
  unfold transition; split_ifs <;> simp [enterSearch, enterDraw, enterHblank, enterVblank]
@[simp] theorem transition_residue (l k : Nat) (s : State) : (transition l k s).residue = s.residue :=
  by
  unfold transition; split_ifs <;> simp [enterSearch, enterDraw, enterHblank, enterVblank]
@[simp] theorem transition_vram (l k : Nat) (s : State) : (transition l k s).vram = s.vram :=
  by
  unfold transition; split_ifs <;> simp [enterSearch, enterDraw, enterHblank, enterVblank]
@[simp] theorem transition_oam (l k : Nat) (s : State) : (transition l k s).oam = s.oam :=
  by
  unfold transition; split_ifs <;> simp [enterSearch, enterDraw, enterHblank, enterVblank]
@[simp] theorem transition_port (l k : Nat) (s : State) : (transition l k s).port = s.port :=
  by
  unfold transition; split_ifs <;> simp [enterSearch, enterDraw, enterHblank, enterVblank]
@[simp] theorem transition_responses (l k : Nat) (s : State) : (transition l k s).responses = s.responses :=
  by
  unfold transition; split_ifs <;> simp [enterSearch, enterDraw, enterHblank, enterVblank]
@[simp] theorem transition_frameOut (l k : Nat) (s : State) : (transition l k s).frameOut = s.frameOut :=
  by
  unfold transition; split_ifs <;> simp [enterSearch, enterDraw, enterHblank, enterVblank]

/-! ### What `requestCoincidence` leaves alone -/

@[simp] theorem requestCoincidence_lcdc (k : Nat) (s : State) : (requestCoincidence k s).lcdc = s.lcdc :=
  by
  unfold requestCoincidence; split <;> simp
@[simp] theorem requestCoincidence_stat (k : Nat) (s : State) : (requestCoincidence k s).stat = s.stat :=
  by
  unfold requestCoincidence; split <;> simp
@[simp] theorem requestCoincidence_scy (k : Nat) (s : State) : (requestCoincidence k s).scy = s.scy :=
  by
  unfold requestCoincidence; split <;> simp
@[simp] theorem requestCoincidence_scx (k : Nat) (s : State) : (requestCoincidence k s).scx = s.scx :=
  by
  unfold requestCoincidence; split <;> simp
@[simp] theorem requestCoincidence_ly (k : Nat) (s : State) : (requestCoincidence k s).ly = s.ly :=
  by
  unfold requestCoincidence; split <;> simp
@[simp] theorem requestCoincidence_lyc (k : Nat) (s : State) : (requestCoincidence k s).lyc = s.lyc :=
  by
  unfold requestCoincidence; split <;> simp
@[simp] theorem requestCoincidence_bgp (k : Nat) (s : State) : (requestCoincidence k s).bgp = s.bgp :=
  by
  unfold requestCoincidence; split <;> simp
@[simp] theorem requestCoincidence_obp0 (k : Nat) (s : State) : (requestCoincidence k s).obp0 = s.obp0 :=
  by
  unfold requestCoincidence; split <;> simp
@[simp] theorem requestCoincidence_obp1 (k : Nat) (s : State) : (requestCoincidence k s).obp1 = s.obp1 :=
  by
  unfold requestCoincidence; split <;> simp
@[simp] theorem requestCoincidence_wy (k : Nat) (s : State) : (requestCoincidence k s).wy = s.wy :=
  by
  unfold requestCoincidence; split <;> simp
@[simp] theorem requestCoincidence_wx (k : Nat) (s : State) : (requestCoincidence k s).wx = s.wx :=
  by
  unfold requestCoincidence; split <;> simp
@[simp] theorem requestCoincidence_wc (k : Nat) (s : State) : (requestCoincidence k s).wc = s.wc :=
  by
  unfold requestCoincidence; split <;> simp
@[simp] theorem requestCoincidence_vblankPending (k : Nat) (s : State) : (requestCoincidence k s).vblankPending = s.vblankPending :=
  by
  unfold requestCoincidence; split <;> simp
@[simp] theorem requestCoincidence_eventsReady (k : Nat) (s : State) : (requestCoincidence k s).eventsReady = s.eventsReady :=
  by
  unfold requestCoincidence; split <;> simp
@[simp] theorem requestCoincidence_counter (k : Nat) (s : State) : (requestCoincidence k s).counter = s.counter :=
  by
  unfold requestCoincidence; split <;> simp
@[simp] theorem requestCoincidence_residue (k : Nat) (s : State) : (requestCoincidence k s).residue = s.residue :=
  by
  unfold requestCoincidence; split <;> simp
@[simp] theorem requestCoincidence_vram (k : Nat) (s : State) : (requestCoincidence k s).vram = s.vram :=
  by
  unfold requestCoincidence; split <;> simp
@[simp] theorem requestCoincidence_oam (k : Nat) (s : State) : (requestCoincidence k s).oam = s.oam :=
  by
  unfold requestCoincidence; split <;> simp
@[simp] theorem requestCoincidence_fb (k : Nat) (s : State) : (requestCoincidence k s).fb = s.fb :=
  by
  unfold requestCoincidence; split <;> simp
@[simp] theorem requestCoincidence_port (k : Nat) (s : State) : (requestCoincidence k s).port = s.port :=
  by
  unfold requestCoincidence; split <;> simp
@[simp] theorem requestCoincidence_responses (k : Nat) (s : State) : (requestCoincidence k s).responses = s.responses :=
  by
  unfold requestCoincidence; split <;> simp
@[simp] theorem requestCoincidence_frameOut (k : Nat) (s : State) : (requestCoincidence k s).frameOut = s.frameOut :=
  by
  unfold requestCoincidence; split <;> simp

/-! ### What `schedStep` leaves alone -/

@[simp] theorem schedStep_lcdc (s : State) : (schedStep s).lcdc = s.lcdc := by simp [schedStep]
@[simp] theorem schedStep_scy (s : State) : (schedStep s).scy = s.scy := by simp [schedStep]
@[simp] theorem schedStep_scx (s : State) : (schedStep s).scx = s.scx := by simp [schedStep]
@[simp] theorem schedStep_lyc (s : State) : (schedStep s).lyc = s.lyc := by simp [schedStep]
@[simp] theorem schedStep_bgp (s : State) : (schedStep s).bgp = s.bgp := by simp [schedStep]
@[simp] theorem schedStep_obp0 (s : State) : (schedStep s).obp0 = s.obp0 := by simp [schedStep]
@[simp] theorem schedStep_obp1 (s : State) : (schedStep s).obp1 = s.obp1 := by simp [schedStep]
@[simp] theorem schedStep_wy (s : State) : (schedStep s).wy = s.wy := by simp [schedStep]
@[simp] theorem schedStep_wx (s : State) : (schedStep s).wx = s.wx := by simp [schedStep]
@[simp] theorem schedStep_eventsReady (s : State) : (schedStep s).eventsReady = s.eventsReady :=
  by simp [schedStep]
@[simp] theorem schedStep_counter (s : State) : (schedStep s).counter = s.counter := by simp [schedStep]
@[simp] theorem schedStep_residue (s : State) : (schedStep s).residue = s.residue := by simp [schedStep]
@[simp] theorem schedStep_vram (s : State) : (schedStep s).vram = s.vram := by simp [schedStep]
@[simp] theorem schedStep_oam (s : State) : (schedStep s).oam = s.oam := by simp [schedStep]
@[simp] theorem schedStep_port (s : State) : (schedStep s).port = s.port := by simp [schedStep]
@[simp] theorem schedStep_responses (s : State) : (schedStep s).responses = s.responses := by simp [schedStep]
@[simp] theorem schedStep_frameOut (s : State) : (schedStep s).frameOut = s.frameOut := by simp [schedStep]

/-! ### What `advanceCounter` leaves alone -/

@[simp] theorem advanceCounter_lcdc (s : State) : (advanceCounter s).lcdc = s.lcdc :=
  by unfold advanceCounter; split <;> rfl
@[simp] theorem advanceCounter_stat (s : State) : (advanceCounter s).stat = s.stat :=
  by unfold advanceCounter; split <;> rfl
@[simp] theorem advanceCounter_scy (s : State) : (advanceCounter s).scy = s.scy :=
  by unfold advanceCounter; split <;> rfl
@[simp] theorem advanceCounter_scx (s : State) : (advanceCounter s).scx = s.scx :=
  by unfold advanceCounter; split <;> rfl
@[simp] theorem advanceCounter_ly (s : State) : (advanceCounter s).ly = s.ly :=
  by unfold advanceCounter; split <;> rfl
@[simp] theorem advanceCounter_lyc (s : State) : (advanceCounter s).lyc = s.lyc :=
  by unfold advanceCounter; split <;> rfl
@[simp] theorem advanceCounter_bgp (s : State) : (advanceCounter s).bgp = s.bgp :=
  by unfold advanceCounter; split <;> rfl
@[simp] theorem advanceCounter_obp0 (s : State) : (advanceCounter s).obp0 = s.obp0 :=
  by unfold advanceCounter; split <;> rfl
@[simp] theorem advanceCounter_obp1 (s : State) : (advanceCounter s).obp1 = s.obp1 :=
  by unfold advanceCounter; split <;> rfl
@[simp] theorem advanceCounter_wy (s : State) : (advanceCounter s).wy = s.wy :=
  by unfold advanceCounter; split <;> rfl
@[simp] theorem advanceCounter_wx (s : State) : (advanceCounter s).wx = s.wx :=
  by unfold advanceCounter; split <;> rfl
@[simp] theorem advanceCounter_wc (s : State) : (advanceCounter s).wc = s.wc :=
  by unfold advanceCounter; split <;> rfl
@[simp] theorem advanceCounter_vblankPending (s : State) : (advanceCounter s).vblankPending = s.vblankPending :=
  by unfold advanceCounter; split <;> rfl
@[simp] theorem advanceCounter_statPending (s : State) : (advanceCounter s).statPending = s.statPending :=
  by unfold advanceCounter; split <;> rfl
@[simp] theorem advanceCounter_blockStatIrqs (s : State) : (advanceCounter s).blockStatIrqs = s.blockStatIrqs :=
  by unfold advanceCounter; split <;> rfl
@[simp] theorem advanceCounter_residue (s : State) : (advanceCounter s).residue = s.residue :=
  by unfold advanceCounter; split <;> rfl
@[simp] theorem advanceCounter_vram (s : State) : (advanceCounter s).vram = s.vram :=
  by unfold advanceCounter; split <;> rfl
@[simp] theorem advanceCounter_oam (s : State) : (advanceCounter s).oam = s.oam :=
  by unfold advanceCounter; split <;> rfl
@[simp] theorem advanceCounter_port (s : State) : (advanceCounter s).port = s.port :=
  by unfold advanceCounter; split <;> rfl
@[simp] theorem advanceCounter_responses (s : State) : (advanceCounter s).responses = s.responses :=
  by unfold advanceCounter; split <;> rfl

/-! ### What `quantum` leaves alone -/

@[simp] theorem quantum_lcdc (s : State) : (quantum s).lcdc = s.lcdc := by simp [quantum]
@[simp] theorem quantum_scy (s : State) : (quantum s).scy = s.scy := by simp [quantum]
@[simp] theorem quantum_scx (s : State) : (quantum s).scx = s.scx := by simp [quantum]
@[simp] theorem quantum_lyc (s : State) : (quantum s).lyc = s.lyc := by simp [quantum]
@[simp] theorem quantum_bgp (s : State) : (quantum s).bgp = s.bgp := by simp [quantum]
@[simp] theorem quantum_obp0 (s : State) : (quantum s).obp0 = s.obp0 := by simp [quantum]
@[simp] theorem quantum_obp1 (s : State) : (quantum s).obp1 = s.obp1 := by simp [quantum]
@[simp] theorem quantum_wy (s : State) : (quantum s).wy = s.wy := by simp [quantum]
@[simp] theorem quantum_wx (s : State) : (quantum s).wx = s.wx := by simp [quantum]
@[simp] theorem quantum_residue (s : State) : (quantum s).residue = s.residue := by simp [quantum]
@[simp] theorem quantum_vram (s : State) : (quantum s).vram = s.vram := by simp [quantum]
@[simp] theorem quantum_oam (s : State) : (quantum s).oam = s.oam := by simp [quantum]
@[simp] theorem quantum_port (s : State) : (quantum s).port = s.port := by simp [quantum]
@[simp] theorem quantum_responses (s : State) : (quantum s).responses = s.responses := by simp [quantum]

/-! ### What a run of quanta leaves alone -/

@[simp] theorem quanta_lcdc (k : Nat) (s : State) : (quanta k s).lcdc = s.lcdc := by
  induction k generalizing s with
  | zero => rfl
  | succ k ih => simp [quanta, ih]

@[simp] theorem quanta_scy (k : Nat) (s : State) : (quanta k s).scy = s.scy := by
  induction k generalizing s with
  | zero => rfl
  | succ k ih => simp [quanta, ih]

@[simp] theorem quanta_scx (k : Nat) (s : State) : (quanta k s).scx = s.scx := by
  induction k generalizing s with
  | zero => rfl
  | succ k ih => simp [quanta, ih]

@[simp] theorem quanta_lyc (k : Nat) (s : State) : (quanta k s).lyc = s.lyc := by
  induction k generalizing s with
  | zero => rfl
  | succ k ih => simp [quanta, ih]

@[simp] theorem quanta_bgp (k : Nat) (s : State) : (quanta k s).bgp = s.bgp := by
  induction k generalizing s with
  | zero => rfl
  | succ k ih => simp [quanta, ih]

@[simp] theorem quanta_obp0 (k : Nat) (s : State) : (quanta k s).obp0 = s.obp0 := by
  induction k generalizing s with
  | zero => rfl
  | succ k ih => simp [quanta, ih]

@[simp] theorem quanta_obp1 (k : Nat) (s : State) : (quanta k s).obp1 = s.obp1 := by
  induction k generalizing s with
  | zero => rfl
  | succ k ih => simp [quanta, ih]

@[simp] theorem quanta_wy (k : Nat) (s : State) : (quanta k s).wy = s.wy := by
  induction k generalizing s with
  | zero => rfl
  | succ k ih => simp [quanta, ih]

@[simp] theorem quanta_wx (k : Nat) (s : State) : (quanta k s).wx = s.wx := by
  induction k generalizing s with
  | zero => rfl
  | succ k ih => simp [quanta, ih]

@[simp] theorem quanta_residue (k : Nat) (s : State) : (quanta k s).residue = s.residue := by
  induction k generalizing s with
  | zero => rfl
  | succ k ih => simp [quanta, ih]

@[simp] theorem quanta_vram (k : Nat) (s : State) : (quanta k s).vram = s.vram := by
  induction k generalizing s with
  | zero => rfl
  | succ k ih => simp [quanta, ih]

@[simp] theorem quanta_oam (k : Nat) (s : State) : (quanta k s).oam = s.oam := by
  induction k generalizing s with
  | zero => rfl
  | succ k ih => simp [quanta, ih]

@[simp] theorem quanta_port (k : Nat) (s : State) : (quanta k s).port = s.port := by
  induction k generalizing s with
  | zero => rfl
  | succ k ih => simp [quanta, ih]

@[simp] theorem quanta_responses (k : Nat) (s : State) : (quanta k s).responses = s.responses := by
  induction k generalizing s with
  | zero => rfl
  | succ k ih => simp [quanta, ih]

end Sys2Proof.Machine
end

