-- ==== Sys2Proof/Laws/Compositor.lean ====
section
/-! SUPPORT. The compositor: every placed pixel is on the screen and has a 2-bit colour index, so the
defensive check answers nothing; how a drawn row reads; where the window places pixels. -/

namespace Sys2Proof.Machine

theorem colour_lt (lo hi : Byte) (c : Nat) : colour lo hi c < 4 := by
  unfold colour
  cases lo.getLsbD (7 - c) <;> cases hi.getLsbD (7 - c) <;> decide

/-- The pixels of one tile slot. -/
theorem mem_slotPlacements (s : State) (place : Nat → Option Nat) (base y slot : Nat) (p : Placement) :
    p ∈ slotPlacements s place base y slot ↔ ∃ c, c < 8 ∧ place (8 * slot + c) = some p.column ∧
      p.index = colour (tileRow s (s.vram.read (mapEntry base y slot)) (y % 8)).1
        (tileRow s (s.vram.read (mapEntry base y slot)) (y % 8)).2 c := by
  simp only [slotPlacements, List.mem_filterMap, List.mem_range, Option.map_eq_some_iff]
  constructor
  · rintro ⟨c, hc, x, hx, rfl⟩
    exact ⟨c, hc, hx, rfl⟩
  · rintro ⟨c, hc, hx, hi⟩
    exact ⟨c, hc, p.column, hx, by rw [← hi]⟩

/-- The pixels of a layer. -/
theorem mem_layerPlacements (s : State) (place : Nat → Option Nat) (base y : Nat) (p : Placement) :
    p ∈ layerPlacements s place base y ↔ ∃ k, k < 256 ∧ place k = some p.column ∧
      p.index = colour (tileRow s (s.vram.read (mapEntry base y (k / 8))) (y % 8)).1
        (tileRow s (s.vram.read (mapEntry base y (k / 8))) (y % 8)).2 (k % 8) := by
  simp only [layerPlacements, List.mem_flatMap, List.mem_range, mem_slotPlacements]
  constructor
  · rintro ⟨slot, hs, c, hc, hp, hi⟩
    refine ⟨8 * slot + c, by simp only [Config.mapW] at hs; omega, hp, ?_⟩
    rw [show (8 * slot + c) / 8 = slot by omega, show (8 * slot + c) % 8 = c by omega]
    exact hi
  · rintro ⟨k, hk, hp, hi⟩
    exact ⟨k / 8, by simp only [Config.mapW]; omega, k % 8, by omega,
      by rw [show 8 * (k / 8) + k % 8 = k by omega]; exact hp, hi⟩

theorem index_lt_of_mem_layer (s : State) (place : Nat → Option Nat) (base y : Nat) (p : Placement)
    (h : p ∈ layerPlacements s place base y) : p.index < 4 := by
  obtain ⟨k, -, -, hi⟩ := (mem_layerPlacements s place base y p).1 h
  rw [hi]
  exact colour_lt _ _ _

/-- Every pixel of a line has a 2-bit colour index (42_compositor.md R199). -/
theorem index_lt_of_mem_line (s : State) (ly : Nat) (p : Placement) (h : p ∈ linePlacements s ly) :
    p.index < 4 := by
  unfold linePlacements backgroundPlacements windowPlacements at h
  split_ifs at h <;> simp at h
  · rcases h with h | h <;> exact index_lt_of_mem_layer _ _ _ _ _ h
  · exact index_lt_of_mem_layer _ _ _ _ _ h
  · exact index_lt_of_mem_layer _ _ _ _ _ h

/-- The defensive check of a line answers nothing (60_exceptions.md R251). -/
@[simp] theorem composeFault_none (ly : Nat) (s : State) : composeFault ly s = none := by
  unfold composeFault
  rw [List.find?_eq_none.2, Option.map_none]
  intro p hp
  have := index_lt_of_mem_line s ly p hp
  simp only [Config.shades, decide_eq_true_eq]
  omega

/-! ### Columns -/

theorem backgroundColumn_eq_some (scx : Byte) (k x : Nat) (hk : k < 256) :
    backgroundColumn scx k = some x ↔ x < 160 ∧ k = (x + scx.toNat) % 256 := by
  have h := scx.isLt
  unfold backgroundColumn
  simp only [Config.screenW]
  split
  · simp only [Option.some.injEq]
    omega
  · simp only [reduceCtorEq, false_iff]
    omega

theorem windowColumn_eq_some (wx : Byte) (k x : Nat) :
    windowColumn wx k = some x ↔ x < 160 ∧ k + wx.toNat = x + 7 := by
  unfold windowColumn
  simp only [Config.screenW, Config.winXOffset]
  split
  · simp only [Option.some.injEq]
    omega
  · simp only [reduceCtorEq, false_iff]
    omega

/-! ### Drawing -/

/-- A pixel of a row of the frame buffer after that row is replaced. -/
theorem Frame.pixel_setIfInBounds (f : Frame) (r : Row) (i y x : Nat) :
    Frame.pixel (f.setIfInBounds i r) y x = if y = i ∧ y < 144 then r.getD x 0 else f.pixel y x := by
  unfold Frame.pixel
  by_cases hy : y < 144
  · have hy' : y < Config.screenH := hy
    simp only [Vector.getD, hy']
    by_cases h : i = y
    · simp [h, hy]
    · simp [h, Ne.symm h]
  · have hy' : ¬ y < Config.screenH := hy
    simp [Vector.getD, hy']

/-- A row after one pixel is written. -/
theorem Row.getD_setIfInBounds (r : Row) (i x : Nat) (v : Shade) :
    (r.setIfInBounds i v).getD x 0 = if x = i ∧ x < 160 then v else r.getD x 0 := by
  by_cases hx : x < 160
  · have hx' : x < Config.screenW := hx
    simp only [Vector.getD, hx']
    by_cases h : i = x
    · simp [h, hx]
    · simp [h, Ne.symm h]
  · have hx' : ¬ x < Config.screenW := hx
    simp [Vector.getD, hx']

/-- A drawn list of pixels leaves a column that it does not place. -/
theorem drawRow_of_not_mem (bgp : Byte) (ps : List Placement) (row : Row) (x : Nat)
    (h : ∀ p ∈ ps, p.column ≠ x) : (drawRow bgp ps row).getD x 0 = row.getD x 0 := by
  induction ps generalizing row with
  | nil => rfl
  | cons p ps ih =>
    have hp : ¬(x = p.column ∧ x < 160) := fun e => h p (by simp) e.1.symm
    have e : drawRow bgp (p :: ps) row =
        drawRow bgp ps (row.setIfInBounds p.column (shade bgp p.index)) := rfl
    rw [e, ih _ fun q hq => h q (List.mem_cons_of_mem _ hq), Row.getD_setIfInBounds, if_neg hp]

/-- A column that a list places, always with one colour index, has that index's shade. -/
theorem drawRow_of_mem (bgp : Byte) (ps : List Placement) (row : Row) (x ci : Nat) (hx : x < 160)
    (h : ∃ p ∈ ps, p.column = x) (hci : ∀ p ∈ ps, p.column = x → p.index = ci) :
    (drawRow bgp ps row).getD x 0 = shade bgp ci := by
  induction ps generalizing row with
  | nil => simp at h
  | cons p ps ih =>
    have e : drawRow bgp (p :: ps) row =
        drawRow bgp ps (row.setIfInBounds p.column (shade bgp p.index)) := rfl
    rw [e]
    by_cases hps : ∃ q ∈ ps, q.column = x
    · exact ih _ hps fun q hq => hci q (List.mem_cons_of_mem _ hq)
    · have hp : p.column = x := by
        obtain ⟨q, hq, hqx⟩ := h
        rcases List.mem_cons.1 hq with rfl | hq
        · exact hqx
        · exact absurd ⟨q, hq, hqx⟩ hps
      rw [drawRow_of_not_mem bgp ps _ x fun q hq hqx => hps ⟨q, hq, hqx⟩, Row.getD_setIfInBounds,
        if_pos ⟨hp.symm, hx⟩, hci p (by simp) hp]

theorem drawRow_append (bgp : Byte) (ps qs : List Placement) (row : Row) :
    drawRow bgp (ps ++ qs) row = drawRow bgp qs (drawRow bgp ps row) := by
  simp [drawRow, List.foldl_append]

/-- COMPOSE with the display on (42_compositor.md R180). -/
theorem compose_of_display (ly : Nat) (s : State) (h : displayEnable s.lcdc = true) :
    compose ly s = { s with
      fb := s.fb.setIfInBounds ly (drawRow s.bgp (linePlacements s ly) (s.fb.getD ly Row.blank))
      wc := if windowPlacements s ly = [] then s.wc else s.wc + 1 } := by
  unfold compose
  rw [if_pos h]

/-- What COMPOSE draws does not depend on STAT, LY and the counter. -/
theorem compose_screen_of_position (y c : Nat) (st l : Byte) (s : State) :
    (compose y { s with stat := st, ly := l, counter := c }).fb = (compose y s).fb ∧
    (compose y { s with stat := st, ly := l, counter := c }).wc = (compose y s).wc := by
  cases h : displayEnable s.lcdc
  · have e : ∀ u : State, u.lcdc = s.lcdc → compose y u = u := fun u hu => by
      unfold compose
      rw [if_neg (by rw [hu, h]; decide)]
    rw [e s rfl, e { s with stat := st, ly := l, counter := c } rfl]
    exact ⟨rfl, rfl⟩
  · rw [compose_of_display y s h, compose_of_display y _ (by exact h)]
    exact ⟨rfl, rfl⟩

/-! ### The window's pixels -/

/-- The window layer places a pixel exactly when it is enabled, reached, and not off the right edge. -/
theorem windowPlacements_eq_nil (s : State) (ly : Nat) :
    windowPlacements s ly = [] ↔
      ¬(windowEnable s.lcdc = true ∧ s.wy.toNat ≤ ly ∧ s.wx.toNat < 167) := by
  have hwx := s.wx.isLt
  unfold windowPlacements
  split
  case isFalse h => simp only [true_iff]; exact fun e => h ⟨e.1, e.2.1⟩
  case isTrue h =>
    rw [List.eq_nil_iff_forall_not_mem]
    constructor
    · rintro hn ⟨-, -, hlt⟩
      have hx : windowColumn s.wx (7 - s.wx.toNat) = some (s.wx.toNat - 7) :=
        (windowColumn_eq_some _ _ _).2 ⟨by omega, by omega⟩
      exact hn ⟨s.wx.toNat - 7, _⟩
        ((mem_layerPlacements _ _ _ _ _).2 ⟨7 - s.wx.toNat, by omega, hx, rfl⟩)
    · intro hn p hp
      obtain ⟨k, hk, hc, -⟩ := (mem_layerPlacements _ _ _ _ _).1 hp
      have := (windowColumn_eq_some _ _ _).1 hc
      exact hn ⟨h.1, h.2, by omega⟩

end Sys2Proof.Machine
end

