-- ==== Sys2Proof/Laws/Decode.lean ====
section
/-! SUPPORT. The fields of a built command word, and the address decode of each target. -/

namespace Sys2Proof

theorem commandWord_toNat (op : BitVec 3) (a : Addr) :
    (commandWord op a).toNat = 65536 * op.toNat + a.toNat := by
  have h : (op ++ a).toNat = op.toNat <<< 16 ||| a.toNat := BitVec.toNat_append op a
  rw [commandWord]
  rw [← Nat.shiftLeft_add_eq_or_of_lt a.isLt, Nat.shiftLeft_eq] at h
  omega

theorem opField_toNat (cw : CommandWord) : (opField cw).toNat = cw.toNat / 65536 := by
  have h := cw.isLt
  simp only [opField, BitVec.extractLsb'_toNat, Nat.shiftRight_eq_div_pow]
  omega

theorem addrField_toNat (cw : CommandWord) : (addrField cw).toNat = cw.toNat % 65536 := by
  simp [addrField, BitVec.extractLsb'_toNat]

@[simp] theorem opField_commandWord (op : BitVec 3) (a : Addr) : opField (commandWord op a) = op := by
  have h := a.isLt
  apply BitVec.eq_of_toNat_eq
  rw [opField_toNat, commandWord_toNat]
  omega

@[simp] theorem addrField_commandWord (op : BitVec 3) (a : Addr) : addrField (commandWord op a) = a := by
  have h := a.isLt
  apply BitVec.eq_of_toNat_eq
  rw [addrField_toNat, commandWord_toNat]
  omega

/-- A command word is its two fields. -/
theorem commandWord_fields (cw : CommandWord) : commandWord (opField cw) (addrField cw) = cw := by
  apply BitVec.eq_of_toNat_eq
  rw [commandWord_toNat, opField_toNat, addrField_toNat]
  omega

theorem vramAddress_toNat (o : BitVec 13) : (vramAddress o).toNat = 0x8000 + o.toNat := by
  have h := o.isLt
  simp only [vramAddress, BitVec.toNat_ofNat, Config.vramBase]
  omega

theorem oamAddress_toNat (o : Byte) : (oamAddress o).toNat = 0xFE00 + o.toNat := by
  have h := o.isLt
  simp only [oamAddress, BitVec.toNat_ofNat, Config.oamBase]
  omega

@[simp] theorem registerAt_address (r : BusReg) : registerAt r.address = some r := by
  cases r <;> decide

/-- A register is found at its own address only. -/
theorem registerAt_eq_some (a : Addr) (r : BusReg) (h : registerAt a = some r) : a = r.address := by
  unfold registerAt at h
  iterate 11
    split at h
    · rename_i e
      obtain rfl := Option.some.inj h
      exact e
  cases h

@[simp] theorem busTarget_address (r : BusReg) : busTarget r.address = .register r := by
  cases r <;> decide

@[simp] theorem busTarget_vramAddress (o : BitVec 13) : busTarget (vramAddress o) = .vram o := by
  have h := o.isLt
  have e : BitVec.ofNat 13 (0x8000 + o.toNat - 0x8000) = o := by
    apply BitVec.eq_of_toNat_eq
    rw [BitVec.toNat_ofNat]
    omega
  unfold busTarget
  simp only [vramAddress_toNat, Config.vramBase, Config.vramSize]
  rw [if_pos (by omega), e]

@[simp] theorem busTarget_oamAddress (o : Byte) (ho : o.toNat < Config.oamSize) :
    busTarget (oamAddress o) = .oam o := by
  have h := o.isLt
  have e : BitVec.ofNat 8 (0xFE00 + o.toNat - 0xFE00) = o := by
    apply BitVec.eq_of_toNat_eq
    rw [BitVec.toNat_ofNat]
    omega
  unfold busTarget
  simp only [oamAddress_toNat, Config.vramBase, Config.vramSize, Config.oamBase, Config.oamSize] at ho ⊢
  rw [if_neg (by omega), if_pos (by omega), e]

/-- What the address decode answers, with the address it stands for. -/
theorem busTarget_cases (a : Addr) :
    (∃ o : BitVec 13, busTarget a = .vram o ∧ a = vramAddress o) ∨
    (∃ o : Byte, busTarget a = .oam o ∧ o.toNat < Config.oamSize ∧ a = oamAddress o) ∨
    (∃ r : BusReg, busTarget a = .register r ∧ a = r.address) ∨
    (busTarget a = .unmapped ∧ registerAt a = none ∧ ¬(0x8000 ≤ a.toNat ∧ a.toNat < 0xA000) ∧
      ¬(0xFE00 ≤ a.toNat ∧ a.toNat < 0xFEA0)) := by
  have ha := a.isLt
  by_cases hv : 0x8000 ≤ a.toNat ∧ a.toNat < 0xA000
  · refine .inl ⟨BitVec.ofNat 13 (a.toNat - 0x8000), ?_, ?_⟩
    · unfold busTarget
      rw [if_pos (by simpa only [Config.vramBase, Config.vramSize] using hv)]
    · apply BitVec.eq_of_toNat_eq
      rw [vramAddress_toNat, BitVec.toNat_ofNat]
      omega
  · by_cases ho : 0xFE00 ≤ a.toNat ∧ a.toNat < 0xFEA0
    · refine .inr (.inl ⟨BitVec.ofNat 8 (a.toNat - 0xFE00), ?_, ?_, ?_⟩)
      · unfold busTarget
        rw [if_neg (by simpa only [Config.vramBase, Config.vramSize] using hv),
          if_pos (by simpa only [Config.oamBase, Config.oamSize] using ho)]
      · simp only [BitVec.toNat_ofNat, Config.oamSize]; omega
      · apply BitVec.eq_of_toNat_eq
        rw [oamAddress_toNat, BitVec.toNat_ofNat]
        omega
    · have hv' : ¬(Config.vramBase ≤ a.toNat ∧ a.toNat < Config.vramBase + Config.vramSize) := by
        simpa only [Config.vramBase, Config.vramSize] using hv
      have ho' : ¬(Config.oamBase ≤ a.toNat ∧ a.toNat < Config.oamBase + Config.oamSize) := by
        simpa only [Config.oamBase, Config.oamSize] using ho
      cases hr : registerAt a with
      | some r =>
        have e : busTarget a = .register r := by unfold busTarget; rw [if_neg hv', if_neg ho', hr]
        exact .inr (.inr (.inl ⟨r, e, registerAt_eq_some a r hr⟩))
      | none =>
        have e : busTarget a = .unmapped := by unfold busTarget; rw [if_neg hv', if_neg ho', hr]
        exact .inr (.inr (.inr ⟨e, rfl, hv, ho⟩))

/-- The address decode and the list of mapped addresses agree (20_memory.md R62). -/
theorem mapped_iff_target (a : Addr) : mapped a = true ↔ busTarget a ≠ .unmapped := by
  rcases busTarget_cases a with ⟨o, h, rfl⟩ | ⟨o, h, ho, rfl⟩ | ⟨r, h, rfl⟩ | ⟨h, hr, hv, ho⟩
  · have hlt := o.isLt
    simp [h, mapped, vramAddress_toNat, Config.vramBase, Config.vramSize]
    omega
  · simp only [Config.oamSize] at ho
    simp [h, mapped, oamAddress_toNat, Config.oamBase, Config.oamSize]
    omega
  · rw [h]
    cases r <;> decide
  · have hr' : ¬(0xFF40 ≤ a.toNat ∧ a.toNat ≤ 0xFF4B ∧ a.toNat ≠ 0xFF46) := by
      rintro ⟨h1, h2, h3⟩
      have : a = BitVec.ofNat 16 a.toNat := by simp
      rw [this] at hr
      generalize a.toNat = n at *
      interval_cases n <;> first | omega | exact absurd hr (by decide)
    simp [h, mapped, Config.vramBase, Config.vramSize, Config.oamBase, Config.oamSize]
    omega

@[simp] theorem decode_encodeRead (a : Addr) : decode (encodeRead a) = decodeRead a := by
  simp [decode, encodeRead]

@[simp] theorem decode_encodeWrite (a : Addr) (d : Byte) :
    decode (encodeWrite a d) = decodeWrite a d := by
  simp [decode, encodeWrite]

end Sys2Proof
end

