-- ==== Sys2Proof/Laws/FramePump.lean ====
section
/-! SUPPORT. The frame pump: runs of quanta, the counter, and what ADV answers. -/

namespace Sys2Proof.Machine

@[simp] theorem quanta_zero (s : State) : quanta 0 s = s := rfl

@[simp] theorem quanta_succ (k : Nat) (s : State) : quanta (k + 1) s = quanta k (quantum s) := rfl

/-- Runs of quanta join. -/
theorem quanta_add (a b : Nat) (s : State) : quanta (a + b) s = quanta b (quanta a s) := by
  induction a generalizing s with
  | zero => simp
  | succ a ih => rw [Nat.add_right_comm, quanta_succ, ih, quanta_succ]

/-- What holds of a state and is kept by a quantum holds after a run of quanta. -/
theorem quanta_induction {P : State → Prop} (hq : ∀ s, P s → P (quantum s)) (k : Nat) (s : State)
    (h : P s) : P (quanta k s) := by
  induction k generalizing s with
  | zero => exact h
  | succ k ih => exact ih _ (hq s h)

/-- The counter's advance short of the wrap (43_frame_pump.md R221). -/
theorem advanceCounter_of_lt (s : State) (h : s.counter + 4 < 70224) :
    advanceCounter s = { s with counter := s.counter + 4 } := by
  unfold advanceCounter
  rw [if_neg (Nat.not_le.2 h)]

/-- The counter's advance at the wrap (43_frame_pump.md R222, R223). -/
theorem advanceCounter_of_wrap (s : State) (h : 70224 ≤ s.counter + 4) :
    advanceCounter s = handoff { s with counter := s.counter + 4 - 70224 } := by
  unfold advanceCounter
  rw [if_pos (show Config.frameCycles ≤ s.counter + Config.quantumCycles from h)]

/-- The counter after a quantum (43_frame_pump.md R222). -/
theorem quantum_counter (s : State) : (quantum s).counter =
    if 70224 ≤ s.counter + 4 then s.counter + 4 - 70224 else s.counter + 4 := by
  simp only [quantum, schedStep_counter, advanceCounter, Config.frameCycles, Config.quantumCycles]
  split <;> rfl

/-- The check of a quantum answers nothing. -/
@[simp] theorem quantumFault_none (s : State) : quantumFault s = none := by
  unfold quantumFault drawFault
  split <;> simp

/-- The check of a run answers nothing. -/
@[simp] theorem quantaFault_none (k : Nat) (s : State) : quantaFault k s = none := by
  induction k generalizing s with
  | zero => rfl
  | succ k ih => simp [quantaFault, ih]

/-- The check of an ADV answers nothing, in every state. -/
@[simp] theorem advFault_none (n : Nat) (s : State) : advFault n s = none := by
  simp [advFault]

/-- What ADV answers. -/
theorem execAdv_eq (n : Nat) (s : State) : execAdv n s = .next (respond .ack (advance n s)) := by
  simp [execAdv, complete]

/-! ### Runs ignore the residue, the port and the responses -/

/-- A state with its residue, port and responses replaced. -/
def setAside (r : Nat) (p : List Transaction) (q : List Response) (s : State) : State :=
  { s with residue := r, port := p, responses := q }

theorem requestStat_setAside (b r : Nat) (p : List Transaction) (q : List Response) (s : State) :
    requestStat b (setAside r p q s) = setAside r p q (requestStat b s) := by
  unfold requestStat
  split <;> rename_i h
  · rw [if_pos (show 3 ≤ b ∧ b ≤ 6 ∧ s.stat.getLsbD b = true ∧ s.blockStatIrqs = false from h)]
    rfl
  · rw [if_neg (show ¬(3 ≤ b ∧ b ≤ 6 ∧ s.stat.getLsbD b = true ∧ s.blockStatIrqs = false) from h)]

theorem compose_setAside (y r : Nat) (p : List Transaction) (q : List Response) (s : State) :
    compose y (setAside r p q s) = setAside r p q (compose y s) := by
  cases h : displayEnable s.lcdc
  · rw [compose, compose, if_neg (by simpa [setAside] using h), if_neg (by simpa using h)]
  · rw [compose, compose, if_pos (show displayEnable (setAside r p q s).lcdc = true from h), if_pos h]
    rfl

theorem transition_setAside (l k r : Nat) (p : List Transaction) (q : List Response) (s : State) :
    transition l k (setAside r p q s) = setAside r p q (transition l k s) := by
  unfold transition
  split_ifs
  · exact requestStat_setAside 5 r p q (setMode .search s)
  · exact compose_setAside s.ly.toNat r p q (setMode .draw s)
  · exact requestStat_setAside 3 r p q (setMode .hblank s)
  · rfl
  · exact requestStat_setAside 4 r p q { setMode .vblank s with vblankPending := true }
  · rfl

theorem enterLine_setAside (l r : Nat) (p : List Transaction) (q : List Response) (s : State) :
    enterLine l (setAside r p q s) = setAside r p q (enterLine l s) := by
  unfold enterLine lineChange
  by_cases h : l = s.ly.toNat
  · rw [if_pos (show l = (setAside r p q s).ly.toNat from h), if_pos h]
    rfl
  · rw [if_neg (show ¬ l = (setAside r p q s).ly.toNat from h), if_neg h]
    rfl

theorem requestCoincidence_setAside (k r : Nat) (p : List Transaction) (q : List Response)
    (s : State) : requestCoincidence k (setAside r p q s) = setAside r p q (requestCoincidence k s) := by
  unfold requestCoincidence
  by_cases h : statCoincidence s.stat = true ∧ k = 0
  · rw [if_pos (show statCoincidence (setAside r p q s).stat = true ∧ k = 0 from h), if_pos h]
    exact requestStat_setAside 6 r p q s
  · rw [if_neg (show ¬(statCoincidence (setAside r p q s).stat = true ∧ k = 0) from h), if_neg h]

theorem schedStep_setAside (r : Nat) (p : List Transaction) (q : List Response) (s : State) :
    schedStep (setAside r p q s) = setAside r p q (schedStep s) := by
  have e : ∀ u : State, updateCoincidence (setAside r p q u) = setAside r p q (updateCoincidence u) :=
    fun _ => rfl
  unfold schedStep
  rw [show (setAside r p q s).line = s.line from rfl, show (setAside r p q s).offset = s.offset from rfl,
    enterLine_setAside, transition_setAside, e, requestCoincidence_setAside]

theorem advanceCounter_setAside (r : Nat) (p : List Transaction) (q : List Response) (s : State) :
    advanceCounter (setAside r p q s) = setAside r p q (advanceCounter s) := by
  unfold advanceCounter
  by_cases h : Config.frameCycles ≤ s.counter + Config.quantumCycles
  · rw [if_pos (show Config.frameCycles ≤ (setAside r p q s).counter + Config.quantumCycles from h),
      if_pos h]
    rfl
  · rw [if_neg (show ¬ Config.frameCycles ≤ (setAside r p q s).counter + Config.quantumCycles from h),
      if_neg h]
    rfl

/-- A run of quanta neither reads nor writes the residue, the port and the responses. -/
theorem quanta_setAside (k r : Nat) (p : List Transaction) (q : List Response) (s : State) :
    quanta k (setAside r p q s) = setAside r p q (quanta k s) := by
  induction k generalizing s with
  | zero => rfl
  | succ k ih =>
    rw [quanta_succ, quanta_succ, quantum, advanceCounter_setAside, schedStep_setAside, ih]
    rfl

end Sys2Proof.Machine
end

