-- ==== Sys2Proof/Laws/Memory.lean ====
section
/-! SUPPORT. The memory operations: what a read after a write gives, and that a write keeps the
canonical form and the bound. -/

namespace Sys2Proof.Machine

@[simp] theorem Memory.read_nil (a : Nat) : Memory.read [] a = 0 := rfl

/-- Before the first listed offset every byte is unlisted. -/
theorem Memory.read_of_lt (m : Memory) (a : Nat) (h : ∀ p ∈ m, a < p.1) : m.read a = 0 := by
  cases m with
  | nil => rfl
  | cons p rest =>
    have := h p (by simp)
    simp [Memory.read, Nat.ne_of_lt this, this, Memory.unlisted]

theorem Memory.read_put (a b : Nat) (v : Byte) (rest : Memory) (h : ∀ p ∈ rest, a < p.1) :
    (Memory.put a v rest).read b = if b = a then v else rest.read b := by
  unfold Memory.put
  split
  case isTrue hv =>
    split
    case isTrue hb => subst hb; rw [hv, Memory.read_of_lt rest b h]; rfl
    case isFalse => rfl
  case isFalse hv =>
    rw [Memory.read]
    split
    case isTrue => rfl
    case isFalse hb =>
      split
      case isTrue hlt => exact (Memory.read_of_lt rest b fun p hp => Nat.lt_trans hlt (h p hp)).symm
      case isFalse => rfl

/-- A read after a write: the byte written at its offset, the old byte elsewhere. -/
theorem Memory.read_write (m : Memory) (a b : Nat) (v : Byte) (h : m.wf) :
    (m.write a v).read b = if b = a then v else m.read b := by
  induction m with
  | nil => rw [Memory.write, Memory.read_put a b v [] (by simp)]
  | cons p rest ih =>
    obtain ⟨k, w⟩ := p
    obtain ⟨hs, hv⟩ := h
    rw [List.pairwise_cons] at hs
    rw [Memory.write]
    split
    case isTrue hlt =>
      apply Memory.read_put
      intro p hp
      rcases List.mem_cons.1 hp with rfl | hp
      · exact hlt
      · exact Nat.lt_trans hlt (hs.1 p hp)
    case isFalse hge =>
      split
      case isTrue heq =>
        subst heq
        rw [Memory.read_put a b v rest hs.1]
        split
        case isTrue => rfl
        case isFalse hb =>
          rw [Memory.read, if_neg hb]
          split
          case isTrue hlt => exact Memory.read_of_lt rest b fun p hp => Nat.lt_trans hlt (hs.1 p hp)
          case isFalse => rfl
      case isFalse hne =>
        have ih' := ih ⟨hs.2, fun p hp => hv p (List.mem_cons_of_mem _ hp)⟩
        rw [Memory.read, Memory.read, ih']
        have : k < a := by omega
        split_ifs <;> first | rfl | omega

/-- Every entry of a written memory is an old one or the written one. -/
theorem Memory.mem_write (m : Memory) (a : Nat) (v : Byte) (p : Host.Cell) (h : p ∈ m.write a v) :
    p ∈ m ∨ (p = (a, v) ∧ v ≠ 0) := by
  induction m with
  | nil =>
    simp only [Memory.write, Memory.put] at h
    split at h
    · simp at h
    · exact .inr ⟨by simpa using h, ‹_›⟩
  | cons q rest ih =>
    simp only [Memory.write, Memory.put] at h
    split_ifs at h
    · exact .inl h
    · rcases List.mem_cons.1 h with h | h
      · exact .inr ⟨h, ‹_›⟩
      · exact .inl h
    · exact .inl (List.mem_cons_of_mem _ h)
    · rcases List.mem_cons.1 h with h | h
      · exact .inr ⟨h, ‹_›⟩
      · exact .inl (List.mem_cons_of_mem _ h)
    · rcases List.mem_cons.1 h with h | h
      · exact .inl (by simp [h])
      · exact (ih h).imp (List.mem_cons_of_mem _) id

/-- A write keeps the canonical form. -/
theorem Memory.write_wf (m : Memory) (a : Nat) (v : Byte) (h : m.wf) : (m.write a v).wf := by
  refine ⟨?_, fun p hp => ?_⟩
  · obtain ⟨hs, -⟩ := h
    induction m with
    | nil => simp only [Memory.write, Memory.put]; split <;> simp
    | cons q rest ih =>
      have hs' := hs
      rw [List.pairwise_cons] at hs'
      simp only [Memory.write, Memory.put]
      split_ifs with hlt _ heq
      · exact hs
      · refine List.pairwise_cons.2 ⟨fun p hp => ?_, hs⟩
        rcases List.mem_cons.1 hp with rfl | hp
        · exact hlt
        · exact Nat.lt_trans hlt (hs'.1 p hp)
      · exact hs'.2
      · exact List.pairwise_cons.2 ⟨fun p hp => heq ▸ hs'.1 p hp, hs'.2⟩
      · refine List.pairwise_cons.2 ⟨fun p hp => ?_, ih hs'.2⟩
        rcases Memory.mem_write rest a v p hp with hp | ⟨rfl, -⟩
        · exact hs'.1 p hp
        · simp only; omega
  · rcases Memory.mem_write m a v p hp with hp | ⟨rfl, hv⟩
    · exact h.2 p hp
    · exact hv

/-- A write inside the region keeps the bound. -/
theorem Memory.write_within (size : Nat) (m : Memory) (a : Nat) (v : Byte) (ha : a < size)
    (h : m.within size) : (m.write a v).within size := by
  intro p hp
  rcases Memory.mem_write m a v p hp with hp | ⟨rfl, -⟩
  · exact h p hp
  · exact ha

/-- The empty region is canonical and inside every size. -/
theorem Memory.nil_wf : Memory.wf [] := by decide

theorem Memory.nil_within (size : Nat) : Memory.within size [] := by simp [Memory.within]

/-- Equal reads mean equal canonical memories: the form is canonical. -/
theorem Memory.eq_of_read_eq (m n : Memory) (hm : m.wf) (hn : n.wf)
    (h : ∀ a, m.read a = n.read a) : m = n := by
  induction m generalizing n with
  | nil =>
    cases n with
    | nil => rfl
    | cons q rest =>
      have := h q.1
      exact absurd (by simpa [Memory.read] using this.symm) (hn.2 q (by simp))
  | cons p rest ih =>
    cases n with
    | nil => exact absurd (by simpa [Memory.read] using h p.1) (hm.2 p (by simp))
    | cons q rest' =>
      obtain ⟨k, v⟩ := p
      obtain ⟨k', v'⟩ := q
      have hm1 := List.pairwise_cons.1 hm.1
      have hn1 := List.pairwise_cons.1 hn.1
      have hv : v ≠ 0 := hm.2 (k, v) (by simp)
      have hv' : v' ≠ 0 := hn.2 (k', v') (by simp)
      have hk : k = k' := by
        by_contra hne
        rcases Nat.lt_or_gt_of_ne hne with hlt | hlt
        · exact hv (by simpa [Memory.read, hne, hlt, Memory.unlisted] using h k)
        · exact hv' (by simpa [Memory.read, Ne.symm hne, hlt, Memory.unlisted] using (h k').symm)
      subst hk
      have hvv : v = v' := by simpa [Memory.read] using h k
      subst hvv
      congr 1
      apply ih rest' ⟨hm1.2, fun p hp => hm.2 p (List.mem_cons_of_mem _ hp)⟩
        ⟨hn1.2, fun p hp => hn.2 p (List.mem_cons_of_mem _ hp)⟩
      intro a
      by_cases hle : a ≤ k
      · rw [Memory.read_of_lt rest a fun p hp => Nat.lt_of_le_of_lt hle (hm1.1 p hp),
          Memory.read_of_lt rest' a fun p hp => Nat.lt_of_le_of_lt hle (hn1.1 p hp)]
      · have := h a
        rw [Memory.read, Memory.read] at this
        rw [if_neg (by omega), if_neg (by omega), if_neg (by omega), if_neg (by omega)] at this
        exact this

end Sys2Proof.Machine
end

