-- ==== Sys2Proof/Laws/PerInstr.lean ====
section
/-! SUPPORT. The family `OpField`: the command code that the encoder gives each transaction is the one
of 30_encoding.md R82. One lemma per constructor of `Instr`. -/

namespace Sys2Proof.Laws.OpField

/-- The command code of a transaction (30_encoding.md R82). -/
def code : Instr → BitVec 3
  | .rdVram _ => 0
  | .wrVram _ _ => 1
  | .rdOam _ => 0
  | .wrOam _ _ => 1
  | .rdLcdc => 0
  | .wrLcdc _ => 1
  | .rdStat => 0
  | .wrStat _ => 1
  | .rdScy => 0
  | .wrScy _ => 1
  | .rdScx => 0
  | .wrScx _ => 1
  | .rdLy => 0
  | .wrLy _ => 1
  | .rdLyc => 0
  | .wrLyc _ => 1
  | .rdBgp => 0
  | .wrBgp _ => 1
  | .rdObp0 => 0
  | .wrObp0 _ => 1
  | .rdObp1 => 0
  | .wrObp1 _ => 1
  | .rdWy => 0
  | .wrWy _ => 1
  | .rdWx => 0
  | .wrWx _ => 1
  | .rdUnmapped _ => 0
  | .wrUnmapped _ _ => 1
  | .adv _ => 2
  | .poll => 3
  | .takeev => 4
  | .reset => 5
  | .reserved op => op

/-- The encoded command word has the transaction's command code. -/
def Statement (i : Instr) : Prop := opField (encode i).cw = code i

theorem rdVram (offset : BitVec 13) : Statement (.rdVram offset) := opField_commandWord _ _

theorem wrVram (offset : BitVec 13) (data : Byte) : Statement (.wrVram offset data) := opField_commandWord _ _

theorem rdOam (offset : Byte) : Statement (.rdOam offset) := opField_commandWord _ _

theorem wrOam (offset : Byte) (data : Byte) : Statement (.wrOam offset data) := opField_commandWord _ _

theorem rdLcdc : Statement .rdLcdc := opField_commandWord _ _

theorem wrLcdc (data : Byte) : Statement (.wrLcdc data) := opField_commandWord _ _

theorem rdStat : Statement .rdStat := opField_commandWord _ _

theorem wrStat (data : Byte) : Statement (.wrStat data) := opField_commandWord _ _

theorem rdScy : Statement .rdScy := opField_commandWord _ _

theorem wrScy (data : Byte) : Statement (.wrScy data) := opField_commandWord _ _

theorem rdScx : Statement .rdScx := opField_commandWord _ _

theorem wrScx (data : Byte) : Statement (.wrScx data) := opField_commandWord _ _

theorem rdLy : Statement .rdLy := opField_commandWord _ _

theorem wrLy (data : Byte) : Statement (.wrLy data) := opField_commandWord _ _

theorem rdLyc : Statement .rdLyc := opField_commandWord _ _

theorem wrLyc (data : Byte) : Statement (.wrLyc data) := opField_commandWord _ _

theorem rdBgp : Statement .rdBgp := opField_commandWord _ _

theorem wrBgp (data : Byte) : Statement (.wrBgp data) := opField_commandWord _ _

theorem rdObp0 : Statement .rdObp0 := opField_commandWord _ _

theorem wrObp0 (data : Byte) : Statement (.wrObp0 data) := opField_commandWord _ _

theorem rdObp1 : Statement .rdObp1 := opField_commandWord _ _

theorem wrObp1 (data : Byte) : Statement (.wrObp1 data) := opField_commandWord _ _

theorem rdWy : Statement .rdWy := opField_commandWord _ _

theorem wrWy (data : Byte) : Statement (.wrWy data) := opField_commandWord _ _

theorem rdWx : Statement .rdWx := opField_commandWord _ _

theorem wrWx (data : Byte) : Statement (.wrWx data) := opField_commandWord _ _

theorem rdUnmapped (addr : Addr) : Statement (.rdUnmapped addr) := opField_commandWord _ _

theorem wrUnmapped (addr : Addr) (data : Byte) : Statement (.wrUnmapped addr data) := opField_commandWord _ _

theorem adv (n : Nat) : Statement (.adv n) := opField_commandWord _ _

theorem poll : Statement .poll := opField_commandWord _ _

theorem takeev : Statement .takeev := opField_commandWord _ _

theorem reset : Statement .reset := opField_commandWord _ _

theorem reserved (op : BitVec 3) : Statement (.reserved op) := opField_commandWord _ _

end Sys2Proof.Laws.OpField
end

