-- ==== Sys2Proof/Laws/Scheduler.lean ====
section
/-! SUPPORT. The status bits under each update of STAT, and what the scheduler's parts do to LY, STAT
and the latches. -/

namespace Sys2Proof.Machine

/-! ### STAT -/

/-- A new mode is the mode, and leaves bits 7:3 alone. -/
theorem withMode_fields (v : Byte) (m : Mode) :
    (withMode v m).extractLsb' 0 2 = m.bits ∧ (withMode v m).extractLsb' 3 5 = v.extractLsb' 3 5 := by
  constructor
  · ext i hi; cases m <;> interval_cases i <;> simp [withMode, Mode.bits]
  · ext i hi; cases m <;> interval_cases i <;> simp [withMode, Mode.bits]

/-- A new coincidence bit is the bit, and leaves the others alone. -/
theorem withCoincidence_fields (v : Byte) (b : Bool) :
    statCoincidence (withCoincidence v b) = b ∧
    (withCoincidence v b).extractLsb' 0 2 = v.extractLsb' 0 2 ∧
    (withCoincidence v b).extractLsb' 3 5 = v.extractLsb' 3 5 := by
  refine ⟨?_, ?_, ?_⟩
  · cases b <;> simp [statCoincidence, withCoincidence]
  · ext i hi; cases b <;> interval_cases i <;> simp [withCoincidence]
  · ext i hi; cases b <;> interval_cases i <;> simp [withCoincidence]

/-- A bus write of STAT takes the enables and leaves the others alone (40_register_bank.md R107). -/
theorem withEnables_fields (v d : Byte) :
    (withEnables v d).extractLsb' 3 4 = d.extractLsb' 3 4 ∧
    (withEnables v d).extractLsb' 0 3 = v.extractLsb' 0 3 ∧
    (withEnables v d).getLsbD 7 = v.getLsbD 7 := by
  refine ⟨?_, ?_, ?_⟩
  · ext i hi; interval_cases i <;> simp [withEnables]
  · ext i hi; interval_cases i <;> simp [withEnables]
  · simp [withEnables]

/-- An enable bit, or bit 7, read off bits 7:3. -/
theorem getLsbD_of_top (v w : Byte) (h : v.extractLsb' 3 5 = w.extractLsb' 3 5) (b : Nat)
    (hb : 3 ≤ b ∧ b < 8) : v.getLsbD b = w.getLsbD b := by
  have e := congrArg (fun u : BitVec 5 => u.getLsbD (b - 3)) h
  have h5 : b - 3 < 5 := by omega
  simpa [BitVec.getLsbD_extractLsb', h5, show 3 + (b - 3) = b by omega] using e

/-! ### The parts of the step -/

/-- What a request for a source in 3..6 does to the latch and to the suppression flag. -/
theorem requestStat_latch (b : Nat) (hb : 3 ≤ b ∧ b ≤ 6) (s : State) :
    (requestStat b s).statPending = (s.statPending || (s.stat.getLsbD b && !s.blockStatIrqs)) ∧
    (requestStat b s).blockStatIrqs = (s.blockStatIrqs || s.stat.getLsbD b) := by
  unfold requestStat
  by_cases h : s.stat.getLsbD b = true ∧ s.blockStatIrqs = false
  · rw [if_pos ⟨hb.1, hb.2, h⟩, h.1, h.2]
    simp
  · rw [if_neg fun e => h e.2.2]
    revert h
    generalize s.stat.getLsbD b = e
    cases e <;> cases s.blockStatIrqs <;> simp

@[simp] theorem enterLine_ly (l : Nat) (s : State) : (enterLine l s).ly = BitVec.ofNat 8 l := rfl

/-- WC after the scanline change: it restarts when the line changes to 0 (41_mode_scheduler.md R152). -/
theorem enterLine_wc (l : Nat) (s : State) :
    (enterLine l s).wc = if l = 0 ∧ s.ly.toNat ≠ 0 then 0 else s.wc := by
  unfold enterLine lineChange
  by_cases hl : l = s.ly.toNat
  · rw [if_pos hl, if_neg (by omega)]
  · rw [if_neg hl]
    by_cases h0 : l = 0
    · rw [if_pos h0, if_pos (by omega)]
    · rw [if_neg h0, if_neg (by omega)]

/-- The suppression flag after the scanline change (41_mode_scheduler.md R152). -/
theorem enterLine_blockStatIrqs (l : Nat) (s : State) :
    (enterLine l s).blockStatIrqs = (s.blockStatIrqs && decide (l = s.ly.toNat)) := by
  unfold enterLine lineChange
  by_cases hl : l = s.ly.toNat
  · rw [if_pos hl, decide_eq_true hl, Bool.and_true]
  · rw [if_neg hl, decide_eq_false hl, Bool.and_false]

/-- STAT after the mode transitions. -/
theorem transition_stat (l k : Nat) (s : State) : (transition l k s).stat =
    if l < 144 then
      if k = 0 then withMode s.stat .search
      else if k = 80 then withMode s.stat .draw
      else if k = 252 then withMode s.stat .hblank
      else s.stat
    else if l = 144 ∧ k = 0 then withMode s.stat .vblank
    else s.stat := by
  unfold transition
  simp only [Config.visibleLines, Config.mode3Offset, Config.mode0Offset]
  split_ifs <;> simp [enterSearch, enterDraw, enterHblank, enterVblank]

/-- The mode transitions leave bits 7:3 of STAT alone. -/
theorem transition_stat_top (l k : Nat) (s : State) :
    (transition l k s).stat.extractLsb' 3 5 = s.stat.extractLsb' 3 5 := by
  rw [transition_stat]
  split_ifs <;> first | rfl | exact (withMode_fields _ _).2

/-- The V-blank latch after the mode transitions. -/
theorem transition_vblankPending (l k : Nat) (s : State) :
    (transition l k s).vblankPending = (s.vblankPending || decide (l = 144 ∧ k = 0)) := by
  unfold transition
  simp only [Config.visibleLines, Config.mode3Offset, Config.mode0Offset]
  split_ifs with h1 h2 h3 h4 h5
  · simp [enterSearch, show l ≠ 144 by omega]
  · simp [enterDraw, show l ≠ 144 by omega]
  · simp [enterHblank, show l ≠ 144 by omega]
  · simp [show l ≠ 144 by omega]
  · simp [enterVblank, h5]
  · simp [h5]

/-- LY after a step. -/
theorem schedStep_ly (s : State) : (schedStep s).ly = BitVec.ofNat 8 s.line := by
  simp [schedStep]

/-- STAT after a step. -/
theorem schedStep_stat (s : State) : (schedStep s).stat =
    withCoincidence (transition s.line s.offset (enterLine s.line s)).stat
      (coincides (BitVec.ofNat 8 s.line) s.lyc) := by
  unfold schedStep requestCoincidence
  split <;> simp

/-- FB and WC after a step are those after the mode transitions. -/
theorem schedStep_fb (s : State) :
    (schedStep s).fb = (transition s.line s.offset (enterLine s.line s)).fb := by
  simp [schedStep]

theorem schedStep_wc (s : State) :
    (schedStep s).wc = (transition s.line s.offset (enterLine s.line s)).wc := by
  simp [schedStep]

/-- The V-blank latch after a step. -/
theorem schedStep_vblankPending (s : State) : (schedStep s).vblankPending =
    (s.vblankPending || decide (s.line = 144 ∧ s.offset = 0)) := by
  simp [schedStep, transition_vblankPending]

/-- FB and WC after the mode transitions: the compositor runs at offset 80 of a visible line. -/
theorem transition_screen (l k : Nat) (s : State) :
    (transition l k s).fb = (if l < 144 ∧ k = 80 then (compose s.ly.toNat (setMode .draw s)).fb else s.fb) ∧
    (transition l k s).wc = (if l < 144 ∧ k = 80 then (compose s.ly.toNat (setMode .draw s)).wc else s.wc) := by
  unfold transition
  simp only [Config.visibleLines, Config.mode3Offset, Config.mode0Offset]
  split_ifs <;>
    first
      | omega
      | simp [enterSearch, enterDraw, enterHblank, enterVblank]

end Sys2Proof.Machine
end

