-- ==== Sys2Proof/Laws/Step.lean ====
section
/-! SUPPORT. What a step does: nothing with an empty port, else the decoded transaction's meaning; and
everything a meaning can answer. -/

namespace Sys2Proof.Machine

theorem fetch_nil (s : State) (h : s.port = []) : fetch s = none := by
  simp [fetch, h]

theorem fetch_cons (s : State) (t : Transaction) (rest : List Transaction) (h : s.port = t :: rest) :
    fetch s = some (t, { s with port := rest }) := by
  simp [fetch, h]

/-- Whatever a step does is either waiting or one transaction. -/
theorem step_cases (s : State) (r : Result) (h : step s = r) :
    (s.port = [] ∧ r = .next s) ∨
    ∃ t rest, s.port = t :: rest ∧ r = exec (decode t) { s with port := rest } := by
  cases hp : s.port with
  | nil => exact .inl ⟨rfl, by rw [← h, step, fetch_nil s hp]; rfl⟩
  | cons t rest => exact .inr ⟨t, rest, rfl, by rw [← h, step, fetch_cons s t rest hp]⟩

@[simp] theorem run_zero (s : State) : run 0 s = .next s := rfl

/-- A run takes its first step. -/
theorem run_succ_next (k : Nat) (s t : State) (h : step s = .next t) : run (k + 1) s = run k t := by
  rw [run, h]

/-- Everything a transaction can answer when it answers a next state. -/
theorem exec_next_cases (i : Instr) (s t : State) (h : exec i s = .next t) :
    (∃ r, t = respond r s) ∨
    (∃ o d, i = .wrVram o d ∧ t = respond .ack { s with vram := s.vram.write o.toNat d }) ∨
    (∃ o d, i = .wrOam o d ∧ t = respond .ack { s with oam := s.oam.write o.toNat d }) ∨
    (∃ r d, r ≠ .ly ∧ i = decodeWriteRegister d r ∧ t = respond .ack (s.busWrite d r)) ∨
    (∃ n, i = .adv n ∧ t = respond .ack (advance n s)) ∨
    (i = .poll ∧ t = respond (.irq (irqBits s)) (clearLatches s)) ∨
    (i = .takeev ∧ t = respond (.ev (BitVec.ofBool s.eventsReady)) { s with eventsReady := false }) ∨
    (i = .reset ∧ t = respond .ack (resetBlock s)) := by
  have inj : ∀ {a b : State}, (Host.Outcome.next a : Result) = .next b → b = a :=
    fun e => (Host.Outcome.next.inj e).symm
  cases i with
  | wrVram o d => exact .inr (.inl ⟨o, d, rfl, inj h⟩)
  | wrOam o d => exact .inr (.inr (.inl ⟨o, d, rfl, inj h⟩))
  | wrLcdc d => exact .inr (.inr (.inr (.inl ⟨.lcdc, d, by decide, rfl, inj h⟩)))
  | wrStat d => exact .inr (.inr (.inr (.inl ⟨.stat, d, by decide, rfl, inj h⟩)))
  | wrScy d => exact .inr (.inr (.inr (.inl ⟨.scy, d, by decide, rfl, inj h⟩)))
  | wrScx d => exact .inr (.inr (.inr (.inl ⟨.scx, d, by decide, rfl, inj h⟩)))
  | wrLyc d => exact .inr (.inr (.inr (.inl ⟨.lyc, d, by decide, rfl, inj h⟩)))
  | wrBgp d => exact .inr (.inr (.inr (.inl ⟨.bgp, d, by decide, rfl, inj h⟩)))
  | wrObp0 d => exact .inr (.inr (.inr (.inl ⟨.obp0, d, by decide, rfl, inj h⟩)))
  | wrObp1 d => exact .inr (.inr (.inr (.inl ⟨.obp1, d, by decide, rfl, inj h⟩)))
  | wrWy d => exact .inr (.inr (.inr (.inl ⟨.wy, d, by decide, rfl, inj h⟩)))
  | wrWx d => exact .inr (.inr (.inr (.inl ⟨.wx, d, by decide, rfl, inj h⟩)))
  | adv n =>
    refine .inr (.inr (.inr (.inr (.inl ⟨n, rfl, inj ?_⟩))))
    rw [← execAdv_eq]
    exact h
  | poll => exact .inr (.inr (.inr (.inr (.inr (.inl ⟨rfl, inj h⟩)))))
  | takeev => exact .inr (.inr (.inr (.inr (.inr (.inr (.inl ⟨rfl, inj h⟩))))))
  | reset => exact .inr (.inr (.inr (.inr (.inr (.inr (.inr ⟨rfl, inj h⟩))))))
  | reserved op => cases h
  | _ => exact .inl ⟨_, inj h⟩

end Sys2Proof.Machine
end

