-- ==== Sys2Proof/Tests/Slice0.lean ====
section
/-! SUPPORT. The model's own tests: ill-formed terms, command words written out from
30_encoding.md R81 to R83, one-step vectors of 95_test_vectors.md (whose sections are named below),
and one witness for the hypotheses of each obligation that has some. -/

namespace Sys2Proof.Tests

open Sys2Proof Sys2Proof.Machine

/-- One field of a next state. -/
def after {α : Type} (f : State → α) : Result → Option α
  | .next t => some (f t)
  | .fault _ => none
  | .refused _ => none

/-- The response of the transaction that a result comes from. -/
def answer : Result → Option Response
  | .next t => t.responses.getLast?
  | .fault _ => none
  | .refused _ => none

/-- A state inside a frame: counter, LY and STAT, the rest as reset leaves it. -/
def posed (counter : Nat) (ly stat : Byte) : State :=
  { State.reset with counter := counter, ly := ly, stat := stat }

/-- A state with one transaction presented. -/
def offered (cw : CommandWord) (data : Byte) (n : Nat) : State := present ⟨cw, data, n⟩ State.reset

/-! ### WellFormed: one ill-formed term for each check, and the last term it admits -/

theorem test_wf_oam_read : Instr.wf (.rdOam 160) = false ∧ Instr.wf (.rdOam 159) = true := by decide

theorem test_wf_oam_write : Instr.wf (.wrOam 0xFF 0) = false ∧ Instr.wf (.wrOam 0x9F 0) = true := by decide

theorem test_wf_unmapped_read :
    Instr.wf (.rdUnmapped 0x8000) = false ∧ Instr.wf (.rdUnmapped 0x9FFF) = false ∧
    Instr.wf (.rdUnmapped 0x7FFF) = true ∧ Instr.wf (.rdUnmapped 0xA000) = true := by decide

theorem test_wf_unmapped_write :
    Instr.wf (.wrUnmapped 0xFE9F 0) = false ∧ Instr.wf (.wrUnmapped 0xFF44 0) = false ∧
    Instr.wf (.wrUnmapped 0xFEA0 0) = true ∧ Instr.wf (.wrUnmapped 0xFF46 0) = true := by decide

theorem test_wf_reserved :
    Instr.wf (.reserved 5) = false ∧ Instr.wf (.reserved 6) = true ∧ Instr.wf (.reserved 7) = true := by
  decide

/-! ### Decoding: every constructor, by its `op` and `addr` fields (section 2; R100 to R126) -/

theorem test_decode_vram :
    decode ⟨0b000#3 ++ 0x8000#16, 0, 0⟩ = .rdVram 0 ∧ decode ⟨0b000#3 ++ 0x9FFF#16, 0, 0⟩ = .rdVram 0x1FFF ∧
    decode ⟨0b001#3 ++ 0x9800#16, 0x3C, 0⟩ = .wrVram 0x1800 0x3C := by decide

theorem test_decode_oam :
    decode ⟨0b000#3 ++ 0xFE7F#16, 0, 0⟩ = .rdOam 0x7F ∧ decode ⟨0b000#3 ++ 0xFE80#16, 0, 0⟩ = .rdOam 0x80 ∧
    decode ⟨0b001#3 ++ 0xFE00#16, 0x55, 0⟩ = .wrOam 0 0x55 ∧
    decode ⟨0b001#3 ++ 0xFE9F#16, 0x66, 0⟩ = .wrOam 0x9F 0x66 := by decide

theorem test_decode_lcdc : decode ⟨0b000#3 ++ 0xFF40#16, 0, 0⟩ = .rdLcdc ∧
    decode ⟨0b001#3 ++ 0xFF40#16, 0x91, 0⟩ = .wrLcdc 0x91 := by decide

theorem test_decode_stat : decode ⟨0b000#3 ++ 0xFF41#16, 0, 0⟩ = .rdStat ∧
    decode ⟨0b001#3 ++ 0xFF41#16, 0x40, 0⟩ = .wrStat 0x40 := by decide

theorem test_decode_scy : decode ⟨0b000#3 ++ 0xFF42#16, 0, 0⟩ = .rdScy ∧
    decode ⟨0b001#3 ++ 0xFF42#16, 0xC8, 0⟩ = .wrScy 0xC8 := by decide

theorem test_decode_scx : decode ⟨0b000#3 ++ 0xFF43#16, 0, 0⟩ = .rdScx ∧
    decode ⟨0b001#3 ++ 0xFF43#16, 0xFA, 0⟩ = .wrScx 0xFA := by decide

theorem test_decode_ly : decode ⟨0b000#3 ++ 0xFF44#16, 0, 0⟩ = .rdLy ∧
    decode ⟨0b001#3 ++ 0xFF44#16, 0x05, 0⟩ = .wrLy 0x05 := by decide

theorem test_decode_lyc : decode ⟨0b000#3 ++ 0xFF45#16, 0, 0⟩ = .rdLyc ∧
    decode ⟨0b001#3 ++ 0xFF45#16, 0x0A, 0⟩ = .wrLyc 0x0A := by decide

theorem test_decode_bgp : decode ⟨0b000#3 ++ 0xFF47#16, 0, 0⟩ = .rdBgp ∧
    decode ⟨0b001#3 ++ 0xFF47#16, 0xE4, 0⟩ = .wrBgp 0xE4 := by decide

theorem test_decode_obp0 : decode ⟨0b000#3 ++ 0xFF48#16, 0, 0⟩ = .rdObp0 ∧
    decode ⟨0b001#3 ++ 0xFF48#16, 0xD2, 0⟩ = .wrObp0 0xD2 := by decide

theorem test_decode_obp1 : decode ⟨0b000#3 ++ 0xFF49#16, 0, 0⟩ = .rdObp1 ∧
    decode ⟨0b001#3 ++ 0xFF49#16, 0x1B, 0⟩ = .wrObp1 0x1B := by decide

theorem test_decode_wy : decode ⟨0b000#3 ++ 0xFF4A#16, 0, 0⟩ = .rdWy ∧
    decode ⟨0b001#3 ++ 0xFF4A#16, 0x10, 0⟩ = .wrWy 0x10 := by decide

theorem test_decode_wx : decode ⟨0b000#3 ++ 0xFF4B#16, 0, 0⟩ = .rdWx ∧
    decode ⟨0b001#3 ++ 0xFF4B#16, 0x07, 0⟩ = .wrWx 0x07 := by decide

theorem test_decode_unmapped :
    decode ⟨0b000#3 ++ 0xFF46#16, 0, 0⟩ = .rdUnmapped 0xFF46 ∧
    decode ⟨0b000#3 ++ 0xFF4C#16, 0, 0⟩ = .rdUnmapped 0xFF4C ∧
    decode ⟨0b000#3 ++ 0x0000#16, 0, 0⟩ = .rdUnmapped 0x0000 ∧
    decode ⟨0b001#3 ++ 0xFF46#16, 0x12, 0⟩ = .wrUnmapped 0xFF46 0x12 := by decide

theorem test_decode_port :
    decode ⟨0b010#3 ++ 0xABCD#16, 0, 456⟩ = .adv 456 ∧ decode ⟨0b011#3 ++ 0xFFFF#16, 0, 0⟩ = .poll ∧
    decode ⟨0b100#3 ++ 0x0000#16, 0, 0⟩ = .takeev ∧ decode ⟨0b101#3 ++ 0x0000#16, 0, 0⟩ = .reset ∧
    decode ⟨0b110#3 ++ 0x0000#16, 0, 0⟩ = .reserved 6 ∧ decode ⟨0b111#3 ++ 0xFFFF#16, 0, 0⟩ = .reserved 7 := by
  decide

/-- Numbers as spec/opcode_table.json gives them; a bit above bit 18 makes no command word. -/
theorem test_table_words :
    decodeTableWord 24 0x1FE80 = some (.wrOam 0x80 0) ∧ decodeTableWord 24 0x20000 = some (.adv 0) ∧
    decodeTableWord 24 0x60000 = some (.reserved 6) ∧ decodeTableWord 24 0x80000 = none := by decide

/-- The CW column of P1 and P5. -/
theorem test_encode_words :
    (encode (.wrVram 0x0010 0xFF)).cw = 0x18010 ∧ (encode (.wrVram 0x181F 0x02)).cw = 0x1981F ∧
    (encode (.wrScx 0xFA)).cw = 0x1FF43 ∧ (encode (.adv 80)).cw = 0x20000 ∧
    (encode (.adv 80)).n = 80 ∧ (encode .takeev).cw = 0x40000 := by decide

/-! ### The notation for streams (30_encoding.md R90, R91) -/

theorem test_line_of_register_write :
    assembleLine ['W', 'R', ' ', 'B', 'G', 'P', ',', ' ', '0', 'x', 'E', '4'] = some ⟨0x1FF47, 0xE4, 0⟩ := by
  decide

theorem test_line_of_read_with_result :
    assembleLine ['R', 'D', ' ', '0', 'x', 'F', 'F', '4', '6', ' ', '-', '>', ' ', '1'] =
      some ⟨0x0FF46, 0, 0⟩ := by decide

theorem test_pseudo_commands :
    assemble [['S', 'T', 'E', 'P'], ['L', 'I', 'N', 'E'], ['F', 'R', 'A', 'M', 'E'], ['R', 'D', 'V', ' ', '2']] =
      some [⟨0x20000, 0, 4⟩, ⟨0x20000, 0, 456⟩, ⟨0x20000, 0, 70224⟩, ⟨0x08002, 0, 0⟩] := by decide

theorem test_line_that_is_no_command : assembleLine ['W', 'R', ' ', '1'] = none := by decide

/-! ### Bus transactions (section 3) -/

theorem test_register_reads_after_reset :
    answer (exec .rdLcdc State.reset) = some (.rdata 0x00) ∧ answer (exec .rdStat State.reset) = some (.rdata 0x80) ∧
    answer (exec .rdLy State.reset) = some (.rdata 0x00) ∧ answer (exec .rdBgp State.reset) = some (.rdata 0x00) := by
  decide

/-- Each register at a value of its own: a swapped read shows. -/
theorem test_register_reads_are_not_swapped :
    let s := { State.reset with scy := 0xC8, scx := 0xFA, lyc := 0x0A, obp0 := 0xD2, obp1 := 0x1B, wy := 0x10, wx := 0x07 }
    answer (exec .rdScy s) = some (.rdata 0xC8) ∧ answer (exec .rdScx s) = some (.rdata 0xFA) ∧
    answer (exec .rdLyc s) = some (.rdata 0x0A) ∧ answer (exec .rdObp0 s) = some (.rdata 0xD2) ∧
    answer (exec .rdObp1 s) = some (.rdata 0x1B) ∧ answer (exec .rdWy s) = some (.rdata 0x10) ∧
    answer (exec .rdWx s) = some (.rdata 0x07) := by decide

theorem test_register_writes_are_not_swapped :
    after State.lcdc (exec (.wrLcdc 0x91) State.reset) = some 0x91 ∧
    after State.scy (exec (.wrScy 0xC8) State.reset) = some 0xC8 ∧
    after State.scx (exec (.wrScx 0xFA) State.reset) = some 0xFA ∧
    after State.lyc (exec (.wrLyc 0x0A) State.reset) = some 0x0A ∧
    after State.bgp (exec (.wrBgp 0xE4) State.reset) = some 0xE4 ∧
    after State.obp0 (exec (.wrObp0 0xD2) State.reset) = some 0xD2 ∧
    after State.obp1 (exec (.wrObp1 0x1B) State.reset) = some 0x1B ∧
    after State.wy (exec (.wrWy 0x10) State.reset) = some 0x10 ∧
    after State.wx (exec (.wrWx 0x07) State.reset) = some 0x07 := by decide

/-- Vectors 3.3 to 3.5. -/
theorem test_stat_write :
    after State.stat (exec (.wrStat 0xFF) State.reset) = some 0xF8 ∧
    after State.stat (exec (.wrStat 0x07) State.reset) = some 0x80 ∧
    after State.stat (exec (.wrStat 0xFF) (posed 0 0 0x86)) = some 0xFE ∧
    after State.stat (exec (.wrStat 0x00) (posed 0 0 0xFE)) = some 0x86 := by decide

/-- Vector 3.8: a write of LYC does not compare. -/
theorem test_lyc_write_leaves_stat : after State.stat (exec (.wrLyc 0x0A) State.reset) = some 0x80 := by decide

/-- Vector 3.7. -/
theorem test_ly_write_faults :
    answer (exec (.wrLy 0x05) State.reset) = some (.fault (.addressing 0xFF44 .write)) ∧
    after State.ly (exec (.wrLy 0x05) State.reset) = some 0x00 := by decide

/-- Vectors 3.14 and 3.16. -/
theorem test_unmapped_accesses_fault :
    answer (exec (.rdUnmapped 0xFF46) State.reset) = some (.fault (.addressing 0xFF46 .read)) ∧
    answer (exec (.wrUnmapped 0xFF00 0x12) State.reset) = some (.fault (.addressing 0xFF00 .write)) := by decide

/-- Vectors 3.11 and 3.12. -/
theorem test_vram_write :
    after (fun t => (t.vram.read 0x1FFF, t.vram.read 0x1FFE)) (exec (.wrVram 0x1FFF 0xA5) State.reset) =
      some (0xA5, 0x00) := by decide

theorem test_vram_read :
    answer (exec (.rdVram 0) { State.reset with vram := [(0, 0x3C)] }) = some (.rdata 0x3C) ∧
    answer (exec (.rdVram 1) { State.reset with vram := [(0, 0x3C)] }) = some (.rdata 0x00) := by decide

/-- Vector 3.13. -/
theorem test_oam_write :
    after (fun t => (t.oam.read 0x9F, t.vram.read 0x9F)) (exec (.wrOam 0x9F 0x66) State.reset) =
      some (0x66, 0x00) := by decide

theorem test_oam_read : answer (exec (.rdOam 0) { State.reset with oam := [(0, 0x55)] }) = some (.rdata 0x55) := by
  decide

/-- Writing the value an unlisted byte reads as takes the entry away. -/
theorem test_memory_stays_canonical :
    Memory.write [(1, 0x11), (2, 0x22)] 1 0x00 = [(2, 0x22)] ∧
    Memory.write [(1, 0x11), (3, 0x33)] 2 0x22 = [(1, 0x11), (2, 0x22), (3, 0x33)] := by decide

/-! ### Mode scheduler and interrupts (sections 4, 5 and 6) -/

/-- The last quantum before each row of table 4.1 that changes the mode. -/
theorem test_mode_entries :
    (quantum (posed 248 0 0x87)).stat = 0x84 ∧ (quantum (posed 452 0 0x84)).stat = 0x82 ∧
    (quantum (posed 532 1 0x82)).stat = 0x83 ∧ (quantum (posed 65660 143 0x80)).stat = 0x81 ∧
    (quantum (posed 66116 144 0x81)).stat = 0x81 ∧ (quantum (posed 70220 153 0x81)).stat = 0x86 := by
  decide

/-- Vectors 4.2.1 and 4.2.3. -/
theorem test_line_changes :
    (quantum (posed 4556 9 0x80)).ly = 10 ∧ (quantum (posed 65660 143 0x80)).ly = 144 ∧
    (quantum (posed 65660 143 0x80)).vblankPending = true ∧
    (quantum (posed 66116 144 0x81)).vblankPending = false ∧ (quantum (posed 70220 153 0x81)).ly = 0 := by
  decide

/-- Vectors 6.5 and 6.6: the search request of line 1 succeeds, its H-idle request does not. -/
theorem test_one_status_interrupt :
    (quantum { posed 452 0 0xFC with lyc := 1, blockStatIrqs := true }).statPending = true ∧
    (quantum { posed 704 1 0xFF with lyc := 1, blockStatIrqs := true }).statPending = false := by decide

/-- Vectors 5.3 and 5.5: the coincidence request is made at offset 0 only. -/
theorem test_coincidence_request :
    (quantum { posed 2276 4 0xC0 with lyc := 5 }).statPending = true ∧
    (quantum { posed 2380 5 0xC3 with lyc := 5 }).statPending = false ∧
    (quantum { posed 2380 5 0xC3 with lyc := 5 }).stat = 0xC7 := by decide

/-- Vectors 6.1 and 6.10. -/
theorem test_poll :
    answer (exec .poll { State.reset with vblankPending := true }) = some (.irq 0b10) ∧
    answer (exec .poll { State.reset with statPending := true }) = some (.irq 0b01) ∧
    after (fun t => (t.vblankPending, t.statPending, t.blockStatIrqs))
      (exec .poll { State.reset with vblankPending := true, statPending := true, blockStatIrqs := true }) =
        some (false, false, true) := by decide

/-! ### Frame pump (section 8) -/

/-- Vectors 8.1 to 8.3. -/
theorem test_adv_residue :
    after (fun t => (t.counter, t.residue)) (exec (.adv 3) State.reset) = some (0, 3) ∧
    after (fun t => (t.counter, t.residue)) (exec (.adv 1) { State.reset with residue := 3 }) = some (4, 0) := by
  decide

/-- Vector 8.6. -/
theorem test_adv_wrap :
    after (fun t => (t.counter, t.eventsReady, t.frameOut.length, t.vblankPending))
      (exec (.adv 1) { posed 70220 153 0x81 with residue := 3 }) = some (0, true, 1, false) := by decide

theorem test_takeev :
    answer (exec .takeev { State.reset with eventsReady := true }) = some (.ev 1) ∧
    answer (exec .takeev State.reset) = some (.ev 0) ∧
    after State.eventsReady (exec .takeev { State.reset with eventsReady := true }) = some false := by decide

/-- Vector 8.9. -/
theorem test_reset :
    after (fun t => (t.stat, t.lcdc, t.eventsReady, t.counter, t.vram.length, t.frameOut.length))
      (exec .reset { posed 70220 153 0x81 with lcdc := 0x91, eventsReady := true, vram := [(0, 1)] }) =
        some (0x80, 0x00, false, 0, 0, 0) := by decide

/-- The first step after reset, with a word of spec/opcode_table.json presented. -/
theorem test_first_step_after_reset :
    answer (step (State.reset.withFetchWord 24 0x0FF41)) = some (.rdata 0x80) ∧
    answer (step (State.reset.withFetchWord 24 0x1FF44)) = some (.fault (.addressing 0xFF44 .write)) ∧
    answer (step (State.reset.withFetchWord 24 0x30000)) = some (.irq 0) ∧
    answer (step (State.reset.withFetchWord 24 0x2ABCD)) = some .ack := by decide

theorem test_reserved : exec (.reserved 6) State.reset = .refused (.reservedCommand 6) := rfl

/-! ### Compositor (section 7) -/

/-- Table 7.1. -/
theorem test_tile_base :
    tileBase 0x10 0x00 = 0x0000 ∧ tileBase 0x00 0x00 = 0x1000 ∧ tileBase 0x10 0x7F = 0x07F0 ∧
    tileBase 0x00 0x7F = 0x17F0 ∧ tileBase 0x10 0x80 = 0x0800 ∧ tileBase 0x00 0x80 = 0x0800 ∧
    tileBase 0x10 0xFF = 0x0FF0 ∧ tileBase 0x00 0xFF = 0x0FF0 := by decide

/-- Table 7.2. -/
theorem test_colour_and_shade :
    (List.range 8).map (colour 0xA5 0xC3) = [3, 2, 1, 0, 0, 1, 2, 3] ∧
    (List.range 8).map (colour 0x80 0x00) = [1, 0, 0, 0, 0, 0, 0, 0] ∧
    (List.range 4).map (shade 0xD2) = [2, 0, 1, 3] ∧ (List.range 4).map (shade 0x1B) = [3, 2, 1, 0] := by
  decide

/-- Table 7.3 and the map byte under it. -/
theorem test_background_position :
    backgroundColumn 250 250 = some 0 ∧ backgroundColumn 250 249 = none ∧ backgroundColumn 250 0 = some 6 ∧
    backgroundColumn 250 153 = some 159 ∧ backgroundColumn 97 0 = some 159 ∧
    backgroundRow { State.reset with scy := 200 } 100 = 44 ∧ mapEntry (mapBase false) 44 3 = 0x18A3 := by decide

/-- Table 7.4. -/
theorem test_window_position :
    windowColumn 0 6 = none ∧ windowColumn 0 7 = some 0 ∧ windowColumn 8 0 = some 1 ∧
    windowColumn 8 159 = none ∧ windowColumn 166 0 = some 159 ∧ windowColumn 167 0 = none := by decide

/-- P3 at its two COMPOSE calls: VRAM as its step 2 leaves it, WX off the screen and then on it. -/
def p3State (wx : Byte) : State :=
  { State.reset with lcdc := 0xA0, bgp := 0xE4, wx := wx, vram := [(0x1001, 0xFF)] }

theorem test_window_off_screen :
    (compose 0 (p3State 0xFF)).wc = 0 ∧ (compose 0 (p3State 0xFF)).fb.pixel 0 0 = 0 := by decide +kernel

theorem test_window_on_screen :
    (compose 1 (p3State 7)).wc = 1 ∧ (compose 1 (p3State 7)).fb.pixel 1 0 = 2 ∧
    (compose 1 (p3State 7)).fb.pixel 1 159 = 2 ∧ (compose 1 (p3State 7)).fb.pixel 0 0 = 0 := by decide +kernel

/-- P5 at its COMPOSE: columns 0 to 5 show tile 2, column 6 does not. -/
theorem test_scroll_wrap :
    let s := { State.reset with
      lcdc := 0x91, bgp := 0xE4, scx := 0xFA, vram := [(0x20, 0xFF), (0x21, 0xFF), (0x181F, 0x02)] }
    (compose 0 s).fb.pixel 0 0 = 3 ∧ (compose 0 s).fb.pixel 0 5 = 3 ∧ (compose 0 s).fb.pixel 0 6 = 0 ∧
    (compose 0 s).fb.pixel 0 159 = 0 := by decide +kernel

/-! ### Witnesses: the hypotheses of each obligation that has some are met -/

/-- DecodeOfEncodeIsIdentity, PresentedTransactionRunsNext: every bounded field at its last value. -/
theorem witness_well_formed :
    Instr.wf (.rdOam 0x9F) = true ∧ Instr.wf (.wrUnmapped 0xFFFF 0xFF) = true ∧ Instr.wf (.reserved 7) = true ∧
    decode (encode (.rdOam 0x9F)) = .rdOam 0x9F ∧ step (present (encode .poll) State.reset) = exec .poll State.reset :=
  ⟨by decide, by decide, by decide, by decide, rfl⟩

/-- StepRunsDecodedTransaction, StepWithNothingPresentedChangesNothing. -/
theorem witness_port :
    (offered 0x30000 0 0).port = ⟨0x30000, 0, 0⟩ :: [] ∧ State.reset.port = [] := by decide

/-- ReservedCommandsAreRefused: both command codes, at the ends of their address fields. -/
theorem witness_reserved :
    opField 0x60000 = 6 ∧ opField 0x6FFFF = 6 ∧ opField 0x70000 = 7 ∧ opField 0x7FFFF = 7 := by decide

/-- StreamsWithoutReservedCommandsNeverStop: a stream that holds every other command code. -/
theorem witness_no_reserved :
    NoReserved { State.reset with
      port := [⟨0x0FF41, 0, 0⟩, ⟨0x1FF44, 5, 0⟩, ⟨0x20000, 0, 80⟩, ⟨0x30000, 0, 0⟩, ⟨0x40000, 0, 0⟩, ⟨0x50000, 0, 0⟩] } := by
  unfold NoReserved
  decide

/-- StatReadsAsItsFiveFields. -/
theorem witness_stat_top : State.reset.stat.getLsbD 7 = true := by decide

/-- VideoMemoryTransactions, ObjectMemoryTransactions: a region with entries, the last offset. -/
theorem witness_memory :
    Memory.wf [(0, 0x3C), (0x1FFF, 0xA5)] ∧ Memory.wf [(0x9F, 0x66)] ∧ (0x9F : Byte).toNat < 160 := by
  decide

/-- BusWriteThenReadReturnsTheByte: a write and a read of one address. -/
def writeThenRead (a : Addr) (d : Byte) : State := { State.reset with port := [encodeWrite a d, encodeRead a] }

theorem witness_write_then_read :
    (∀ a d, MemoryOk (writeThenRead a d)) ∧ mapped 0x9FFF = true ∧ mapped 0xFE9F = true ∧
    mapped 0xFF41 = true ∧ mapped 0xFF4B = true ∧ (0xFF41 : Addr) ≠ 0xFF44 ∧
    (writeThenRead 0xFF41 0xFF).port = [encodeWrite 0xFF41 0xFF, encodeRead 0xFF41] :=
  ⟨fun _ _ => ⟨show Memory.wf [] by decide, show Memory.within Config.vramSize [] by decide,
    show Memory.wf [] by decide, show Memory.within Config.oamSize [] by decide⟩, by decide, by decide, by decide, by decide,
    by decide, rfl⟩

/-- The vectors 3.3 and 3.13 as two steps. -/
theorem witness_write_then_read_runs :
    answer (run 2 (writeThenRead 0xFF41 0xFF)) = some (.rdata 0xF8) ∧
    answer (run 2 (writeThenRead 0xFE9F 0x66)) = some (.rdata 0x66) := by decide

/-- BusAccessFaultsExactlyWhenUnmappedOrLyWrite, BusTransactionsLeaveTheSchedulerAlone: a read and a
write, each once with and once without a fault. -/
theorem witness_bus_access :
    opField 0x0FF44 = 0 ∧ opField 0x0FF46 = 0 ∧ opField 0x1FF45 = 1 ∧ opField 0x1FF44 = 1 ∧
    answer (step (offered 0x0FF44 0 0)) = some (.rdata 0) ∧
    answer (step (offered 0x0FF46 0 0)) = some (.fault (.addressing 0xFF46 .read)) ∧
    answer (step (offered 0x1FF45 1 0)) = some .ack ∧
    answer (step (offered 0x1FF44 1 0)) = some (.fault (.addressing 0xFF44 .write)) := by decide

/-- SchedulerWritesTheDerivedLine, QuantumAdvancesTheCounterModuloTheFrame,
HandoffHappensAtTheWrapOnly, AdvanceCountsFrames: the last counter value before the wrap, and the
one before it. -/
theorem witness_counter :
    (posed 70220 153 0x81).counter < 70224 ∧ 70224 ≤ (posed 70220 153 0x81).counter + 4 ∧
    (posed 70216 153 0x81).counter + 4 < 70224 := by decide

/-- ModeChangesOnlyAtTheTransitions: the first line without a compositor. -/
theorem witness_line_144 : 144 ≤ (posed 65664 144 0x81).counter / 456 ∧ ¬ 144 ≤ (posed 65660 143 0x80).counter / 456 := by
  decide

/-- StatusRequestSucceedsOnlyWhenEnabledAndFirst: sources 3 and 6 succeed; 2 is no source, 5 is not
enabled, 6 is suppressed. -/
theorem witness_status_request :
    let s := posed 456 1 0xC8
    (3 ≤ 3 ∧ 3 ≤ 6 ∧ s.stat.getLsbD 3 = true ∧ s.blockStatIrqs = false) ∧
    (3 ≤ 6 ∧ 6 ≤ 6 ∧ s.stat.getLsbD 6 = true ∧ s.blockStatIrqs = false) ∧
    ¬(3 ≤ 2 ∧ 2 ≤ 6 ∧ s.stat.getLsbD 2 = true ∧ s.blockStatIrqs = false) ∧
    ¬(3 ≤ 5 ∧ 5 ≤ 6 ∧ s.stat.getLsbD 5 = true ∧ s.blockStatIrqs = false) ∧
    ¬(3 ≤ 6 ∧ 6 ≤ 6 ∧ s.stat.getLsbD 6 = true ∧ { s with blockStatIrqs := true }.blockStatIrqs = false) := by
  decide

/-- WindowCounterRestartsAtLineZero, FrameBufferChangesOnlyAtDrawOrWrap: their premise before the wrap,
before the mode-3 entries of lines 0, 1 and 143, and before two quanta that are neither (offset 80 of
line 144, and a line change). -/
theorem witness_quantum_positions :
    TimingOk (posed 70220 153 0x81) ∧ TimingOk (posed 76 0 0x84) ∧ TimingOk (posed 532 1 0x82) ∧
    TimingOk (posed 65284 143 0x82) ∧ TimingOk (posed 65740 144 0x81) ∧ TimingOk (posed 4556 9 0x80) :=
  ⟨⟨by decide, by decide, by decide, by decide, by decide, .inl (by decide)⟩,
    ⟨by decide, by decide, by decide, by decide, by decide, .inr ⟨by decide, by decide⟩⟩,
    ⟨by decide, by decide, by decide, by decide, by decide, .inl (by decide)⟩,
    ⟨by decide, by decide, by decide, by decide, by decide, .inl (by decide)⟩,
    ⟨by decide, by decide, by decide, by decide, by decide, .inl (by decide)⟩,
    ⟨by decide, by decide, by decide, by decide, by decide, .inl (by decide)⟩⟩

theorem witness_quantum_clauses :
    70224 ≤ (posed 70220 153 0x81).counter + 4 ∧ (posed 76 0 0x84).counter + 4 = 456 * 0 + 80 ∧
    (posed 532 1 0x82).counter + 4 = 456 * 1 + 80 ∧ (posed 65284 143 0x82).counter + 4 = 456 * 143 + 80 ∧
    (posed 65740 144 0x81).counter + 4 = 456 * 144 + 80 ∧ (posed 4556 9 0x80).counter + 4 = 456 * 10 ∧
    ∀ l : Fin 144, (posed 65740 144 0x81).counter + 4 ≠ 456 * l.val + 80 ∧
      (posed 4556 9 0x80).counter + 4 ≠ 456 * l.val + 80 := by decide

/-- From a window counter that is not 0 (R279's 94): it restarts at the wrap, and a visible line change
keeps it. -/
theorem witness_window_counter :
    (quantum { posed 70220 153 0x81 with wc := 94 }).wc = 0 ∧ (quantum { posed 4556 9 0x80 with wc := 4 }).wc = 4 := by
  decide

/-- OneStatusInterruptPerScanline: a whole line but its first quantum, all four sources enabled. -/
theorem witness_blocked_line :
    let s := { posed 456 1 0xFE with lyc := 1, blockStatIrqs := true }
    s.counter < 70224 ∧ s.ly.toNat = s.counter / 456 ∧ s.counter % 456 + 4 * 113 < 456 ∧
    s.blockStatIrqs = true := by decide

/-- TimingIgnoresTheDisplay: two states with one timing part and different displays. -/
theorem witness_timing :
    let s := posed 456 1 0x82
    let u := { s with lcdc := 0x91, bgp := 0xE4, scx := 7, wx := 9, wc := 3, vram := [(0, 1)] }
    s.timing = u.timing ∧ s.lcdc ≠ u.lcdc ∧ s.vram.length ≠ u.vram.length := by decide

/-- TileFetchesStayInsideVideoMemory, ColourIndexAndPalette: the last row, column, position and bit. -/
theorem witness_fetch_bounds :
    tileBase 0x00 0x7F + 2 * 7 + 1 = 0x17FF ∧ mapEntry (mapBase true) 255 31 = 0x1FFF ∧
    colour 0xFF 0xFF 7 = 3 ∧ (shade 0x80 3).getLsbD 1 = true := by decide

/-- LineShadesColumnByColumn: its window, background and untouched cases on the last line and column;
WindowCounterAdvancesOnlyWhenShown and ComposeDoesNothingWithTheDisplayOff, both ways. -/
theorem witness_line_cases :
    let both := { State.reset with lcdc := 0xE1, wx := 166, wy := 143 }
    let none := { State.reset with lcdc := 0xC0 }
    (both.lcdc.getLsbD 7 = true ∧ both.lcdc.getLsbD 5 = true ∧ both.wy.toNat ≤ 143 ∧
      both.wx.toNat ≤ 159 + 7 ∧ ¬ both.wx.toNat ≤ 158 + 7 ∧ both.lcdc.getLsbD 0 = true ∧ both.wx.toNat < 167) ∧
    (none.lcdc.getLsbD 7 = true ∧ none.lcdc.getLsbD 5 = false ∧ none.lcdc.getLsbD 0 = false) ∧
    State.reset.lcdc.getLsbD 7 = false := by decide

/-- ComposeWritesOnlyItsRowAndTheWindowCounter: a row other than the composed one keeps its pixels. -/
theorem witness_other_row : (0 : Nat) ≠ 1 ∧ (compose 1 (p3State 7)).fb.pixel 0 159 = 0 := by decide +kernel

/-- FrameBufferChangesOnlyAtDrawOrWrap: FB and WC change at a mode-3 entry (program P3's second line). -/
theorem witness_fb_changes :
    let s := { posed 532 1 0x82 with lcdc := 0xA0, bgp := 0xE4, wx := 7, vram := [(0x1001, 0xFF)] }
    (quantum s).fb.pixel 1 0 = 2 ∧ s.fb.pixel 1 0 = 0 ∧ (quantum s).wc = 1 ∧
    (quantum s).counter = 456 * 1 + 80 := by
  decide +kernel

theorem witness_fb_differs :
    let s := { posed 532 1 0x82 with lcdc := 0xA0, bgp := 0xE4, wx := 7, vram := [(0x1001, 0xFF)] }
    (quantum s).fb ≠ s.fb := by
  intro s h
  have hp := congrArg (fun f : Frame => f.pixel 1 0) h
  rw [show (quantum s).fb.pixel 1 0 = 2 from witness_fb_changes.1,
    show s.fb.pixel 1 0 = 0 from witness_fb_changes.2.1] at hp
  exact absurd hp (by decide)

/-- EmittedFramesAreNeverChanged: a step with something emitted and answered before it. -/
theorem witness_step_next :
    let s := { offered 0x40000 0 0 with frameOut := [Frame.blank], responses := [.ack] }
    ∃ t, step s = .next t ∧ t.frameOut = [Frame.blank] ∧ t.responses = [.ack, .ev 0] := ⟨_, rfl, rfl, rfl⟩

/-- FramesAreBlankWhileTheDisplayIsOff. -/
theorem witness_display_off : State.reset.lcdc.getLsbD 7 = false ∧ State.reset.fb = Frame.blank :=
  ⟨by decide, rfl⟩

/-- LatchesAreClearedOnlyByTheirCommands: a read with all three set, and the two commands that clear. -/
theorem witness_latches :
    let s := { State.reset with vblankPending := true, statPending := true, eventsReady := true }
    after (fun t => (t.vblankPending, t.statPending, t.eventsReady)) (exec .rdLy s) = some (true, true, true) ∧
    after (fun t => (t.vblankPending, t.statPending, t.eventsReady)) (exec .takeev s) = some (true, true, false) ∧
    after (fun t => (t.vblankPending, t.statPending, t.eventsReady)) (exec .poll s) = some (false, false, true) ∧
    Instr.rdLy ≠ .reset ∧ Instr.rdLy ≠ .poll ∧ Instr.rdLy ≠ .takeev ∧ Instr.takeev ≠ .poll ∧
    Instr.poll ≠ .takeev := by decide

/-- CounterMovesOnlyByAdvanceOrReset. -/
theorem witness_counter_stays :
    after State.counter (exec .poll (posed 456 1 0x82)) = some 456 ∧ Instr.poll ≠ .reset ∧
    ∀ n, Instr.poll ≠ .adv n := ⟨by decide, by decide, fun n h => by cases h⟩

/-- FirstLineAfterReset, FirstVblankAfterReset: the ends of their ranges (table 4.1 at 4, 76 and 80). -/
theorem witness_first_frame :
    (1 ≤ 1 ∧ 1 < 20) ∧ (1 ≤ 19 ∧ 19 < 20) ∧ (65663 < 70224 ∧ 65664 < 70224 ∧ 70223 < 70224) ∧
    (quanta 1 State.reset).stat = 0x84 ∧ (quanta 19 State.reset).stat = 0x84 ∧
    (quanta 20 State.reset).stat = 0x87 := by decide +kernel

/-- EveryStepKeepsTheTiming: a reset block that is about to run a quantum, and a position at offset
252 of line 143. -/
theorem witness_timing_ok :
    TimingOk (offered 0x20000 0 4) ∧ TimingOk (posed 65460 143 0x80) ∧
    ∃ t, step (offered 0x20000 0 4) = .next t :=
  ⟨⟨by decide, by decide, by decide, by decide, by decide, .inr ⟨by decide, by decide⟩⟩,
    ⟨by decide, by decide, by decide, by decide, by decide, .inl (by decide)⟩, ⟨_, rfl⟩⟩

/-- EveryStepKeepsTheMemoryForm: regions that hold bytes at their last offsets. -/
theorem witness_memory_ok :
    let s := { offered 0x1FE9F 0x66 0 with vram := [(0x1FFF, 0xA5)], oam := [(0x9F, 0x55)] }
    MemoryOk s ∧ ∃ t, step s = .next t :=
  ⟨⟨by decide, by decide, by decide, by decide⟩, ⟨_, rfl⟩⟩

theorem blank_pixel (y x : Nat) : Frame.blank.pixel y x = 0 := by
  by_cases hy : y < 144 <;> by_cases hx : x < 160 <;>
    simp [Frame.pixel, Frame.blank, Row.blank, Vector.getD, Config.screenH, Config.screenW, hx, hy]

/-- EveryStepKeepsTheScreen: after two composed lines that both showed the window. -/
theorem witness_screen_ok :
    let s := { posed 536 1 0x83 with wc := 2, port := [⟨0x20000, 0, 4⟩] }
    TimingOk s ∧ ScreenOk s ∧ ∃ t, step s = .next t :=
  ⟨⟨by decide, by decide, by decide, by decide, by decide, .inl (by decide)⟩,
    ⟨by decide, fun y x _ _ _ => blank_pixel y x⟩, ⟨_, rfl⟩⟩

end Sys2Proof.Tests
end

section
/-! PROOFS. The reset state (10_state.md R47). -/

namespace Sys2Proof.Machine

/-- A vector of one value, read with that value as the default, gives it at every index, so what is
read from a blank frame needs no bound on the coordinates. -/
@[simp] theorem vector_getD_replicate_self {α : Type} (n i : Nat) (a : α) :
    (Vector.replicate n a).getD i a = a := by
  by_cases hi : i < n <;> simp [Vector.getD, hi]

/-- The blank frame shows the lightest shade at every coordinate, on the screen and off it. -/
@[simp] theorem Frame.pixel_blank (y x : Nat) : Frame.blank.pixel y x = 0 := by
  have hrow : Frame.blank.getD y Row.blank = Row.blank := vector_getD_replicate_self _ y Row.blank
  have hpixel : Row.blank.getD x 0 = 0 := vector_getD_replicate_self _ x 0
  rw [Frame.pixel, hrow, hpixel]

/-- Settles O53: the registers, latches, flags and counters are literals of `State.reset`; both
memories list no byte, and the frame buffer is the blank frame. -/
theorem resetStateHoldsTheTabledValues : Obligations.ResetStateHoldsTheTabledValues := by
  have hvram (a : Nat) : State.reset.vram.read a = 0 := Memory.read_nil a
  have hoam (a : Nat) : State.reset.oam.read a = 0 := Memory.read_nil a
  have hfb (y x : Nat) : State.reset.fb.pixel y x = 0 := Frame.pixel_blank y x
  exact ⟨rfl, rfl, rfl, rfl, rfl, rfl, rfl, rfl, rfl, rfl, rfl, rfl, rfl, rfl, rfl, rfl, rfl, rfl,
    hvram, hoam, hfb⟩

end Sys2Proof.Machine
end

section
/-! PROOFS. The decoder, by command code (30_encoding.md R82 to R85). -/

namespace Sys2Proof

variable {t : Transaction}

/-- R82, command code 2: the cycle count is the operand line `n`. -/
theorem decode_of_opField_two (h : opField t.cw = 2) : decode t = .adv t.n := by
  simp [decode, h]

/-- R82, command code 3. -/
theorem decode_of_opField_three (h : opField t.cw = 3) : decode t = .poll := by
  simp [decode, h]

/-- R82, command code 4. -/
theorem decode_of_opField_four (h : opField t.cw = 4) : decode t = .takeev := by
  simp [decode, h]

/-- R82, command code 5. -/
theorem decode_of_opField_five (h : opField t.cw = 5) : decode t = .reset := by
  simp [decode, h]

/-- Settles O6: the code of a built command word is the one it was built from, whatever its address,
and codes 2 to 5 are decoded by the code alone. -/
theorem portCommandsIgnoreAddressField : Obligations.PortCommandsIgnoreAddressField := by
  intro a d n
  have hop (op : BitVec 3) : opField (Transaction.mk (commandWord op a) d n).cw = op :=
    opField_commandWord op a
  exact ⟨decode_of_opField_two (hop 2), decode_of_opField_three (hop 3),
    decode_of_opField_four (hop 4), decode_of_opField_five (hop 5)⟩

end Sys2Proof
end

section
/-! PROOFS. Writes of a register over the bus (40_register_bank.md R105 to R125). -/

namespace Sys2Proof.Machine

/-- Command code 1 with a register's address writes that register, whatever the cycle count line
holds (30_encoding.md R83). -/
theorem decode_writeWord_address (r : BusReg) (d : Byte) (n : Nat) :
    decode ⟨commandWord 1 r.address, d, n⟩ = decodeWriteRegister d r := by
  simp [decode, decodeWrite]

/-- A write of a register other than LY is the register's own update, acknowledged. -/
theorem exec_decodeWriteRegister (r : BusReg) (hr : r ≠ .ly) (d : Byte) (s : State) :
    exec (decodeWriteRegister d r) s = .next (respond .ack (s.busWrite d r)) := by
  cases r
  case ly => exact absurd rfl hr
  all_goals rfl

/-- Settles O17: the word is command code 1 with STAT's address, the meaning is STAT's update
acknowledged, and its mask takes the enables and keeps the other bits. -/
theorem statWriteChangesTheEnablesOnly : Obligations.StatWriteChangesTheEnablesOnly := by
  intro s d n
  have hword : (0x1FF41 : CommandWord) = commandWord 1 BusReg.stat.address := by decide
  have hdecode : decode ⟨0x1FF41, d, n⟩ = .wrStat d := by
    rw [hword]
    exact decode_writeWord_address .stat d n
  have hexec : exec (.wrStat d) s = .next (respond .ack (s.busWrite d .stat)) :=
    exec_decodeWriteRegister .stat (by decide) d s
  exact ⟨hdecode, _, hexec, rfl, withEnables_fields s.stat d⟩

end Sys2Proof.Machine
end

section
/-! PROOFS. The coincidence bit, the mode and the compositor's silence
(41_mode_scheduler.md R154 to R159). -/

namespace Sys2Proof.Machine

/-- STAT.MODE after the mode transitions (41_mode_scheduler.md R154 to R158). -/
theorem transition_mode (l k : Nat) (s : State) : (transition l k s).stat.extractLsb' 0 2 =
    if l < 144 then
      if k = 0 then 2
      else if k = 80 then 3
      else if k = 252 then 0
      else s.stat.extractLsb' 0 2
    else if l = 144 ∧ k = 0 then 1
    else s.stat.extractLsb' 0 2 := by
  have hmode (m : Mode) : (withMode s.stat m).extractLsb' 0 2 = m.bits := (withMode_fields s.stat m).1
  rw [transition_stat]
  split_ifs
  · exact hmode .search
  · exact hmode .draw
  · exact hmode .hblank
  · rfl
  · exact hmode .vblank
  · rfl

/-- Only the mode transitions change STAT.MODE: the coincidence bit is beside it. -/
theorem schedStep_mode (s : State) : (schedStep s).stat.extractLsb' 0 2 =
    (transition s.line s.offset (enterLine s.line s)).stat.extractLsb' 0 2 := by
  rw [schedStep_stat]
  exact (withCoincidence_fields _ _).2.1

/-- A step leaves bits 7:3 of STAT alone (10_state.md R27). -/
theorem schedStep_stat_top (s : State) :
    (schedStep s).stat.extractLsb' 3 5 = s.stat.extractLsb' 3 5 := by
  rw [schedStep_stat, (withCoincidence_fields _ _).2.2, transition_stat_top, enterLine_stat]

/-- No line from 144 on is composed, and none of them restarts the window (41_mode_scheduler.md R158). -/
theorem schedStep_screen_of_invisible (s : State) (hline : 144 ≤ s.line) :
    (schedStep s).fb = s.fb ∧ (schedStep s).wc = s.wc := by
  have hnoDraw : ¬(s.line < 144 ∧ s.offset = 80) := by omega
  have hnoRestart : ¬(s.line = 0 ∧ s.ly.toNat ≠ 0) := by omega
  obtain ⟨hfb, hwc⟩ := transition_screen s.line s.offset (enterLine s.line s)
  rw [if_neg hnoDraw] at hfb hwc
  constructor
  · rw [schedStep_fb, hfb, enterLine_fb]
  · rw [schedStep_wc, hwc, enterLine_wc, if_neg hnoRestart]

/-- Settles O25: the last write of STAT in a step is the coincidence bit, from the LY that the step
has written and the LYC that it leaves alone. -/
theorem coincidenceIsRecomputedEveryStep : Obligations.CoincidenceIsRecomputedEveryStep := by
  intro s
  refine ⟨?_, schedStep_lyc s⟩
  rw [schedStep_stat, schedStep_ly]
  exact (withCoincidence_fields _ _).1

/-- Settles O26: the mode is the one the transitions leave, bits 7:3 are kept by every part of the
step, and the compositor runs on a visible line only. -/
theorem modeChangesOnlyAtTheTransitions : Obligations.ModeChangesOnlyAtTheTransitions := by
  intro s
  refine ⟨?_, schedStep_stat_top s, schedStep_screen_of_invisible s⟩
  rw [schedStep_mode, transition_mode, enterLine_stat]
  rfl

end Sys2Proof.Machine
end

section
/-! PROOFS. Noninterference: each part of an ADV takes states with equal timing parts to states with
equal timing parts (41_mode_scheduler.md R162). The compositor, the one part that reads the display,
leaves the timing part alone. -/

namespace Sys2Proof.Machine

/-! ### The timing part after an update -/

@[simp] theorem compose_timing (y : Nat) (s : State) : (compose y s).timing = s.timing := by
  simp [State.timing]

theorem setMode_timing (m : Mode) (s : State) :
    (setMode m s).timing = { s.timing with stat := withMode s.timing.stat m } := rfl

theorem updateCoincidence_timing (s : State) : (updateCoincidence s).timing =
    { s.timing with stat := withCoincidence s.timing.stat (coincides s.timing.ly s.timing.lyc) } := rfl

theorem enterLine_timing (l : Nat) (s : State) : (enterLine l s).timing =
    { s.timing with
      ly := BitVec.ofNat 8 l
      blockStatIrqs := s.blockStatIrqs && decide (l = s.ly.toNat) } := by
  simp [State.timing, enterLine_blockStatIrqs]

theorem requestStat_timing (b : Nat) (s : State) : (requestStat b s).timing =
    if 3 ≤ b ∧ b ≤ 6 ∧ s.timing.stat.getLsbD b = true ∧ s.timing.blockStatIrqs = false then
      { s.timing with statPending := true, blockStatIrqs := true }
    else s.timing :=
  apply_ite State.timing _ _ _

theorem advanceCounter_timing (s : State) : (advanceCounter s).timing =
    if 70224 ≤ s.timing.counter + 4 then
      { s.timing with counter := s.timing.counter + 4 - 70224, eventsReady := true }
    else { s.timing with counter := s.timing.counter + 4 } :=
  apply_ite State.timing _ _ _

/-! ### Equal timing parts stay equal -/

section
variable {s u : State} (h : s.timing = u.timing)
include h

theorem setMode_timing_congr (m : Mode) : (setMode m s).timing = (setMode m u).timing := by
  rw [setMode_timing, setMode_timing, h]

theorem requestStat_timing_congr (b : Nat) : (requestStat b s).timing = (requestStat b u).timing := by
  rw [requestStat_timing, requestStat_timing, h]

theorem enterLine_timing_congr (l : Nat) : (enterLine l s).timing = (enterLine l u).timing := by
  have hly : s.ly = u.ly := congrArg Timing.ly h
  have hblock : s.blockStatIrqs = u.blockStatIrqs := congrArg Timing.blockStatIrqs h
  rw [enterLine_timing, enterLine_timing, h, hly, hblock]

theorem updateCoincidence_timing_congr : (updateCoincidence s).timing = (updateCoincidence u).timing := by
  rw [updateCoincidence_timing, updateCoincidence_timing, h]

theorem enterDraw_timing_congr : (enterDraw s).timing = (enterDraw u).timing := by
  rw [enterDraw, enterDraw, compose_timing, compose_timing]
  exact setMode_timing_congr h .draw

theorem enterVblank_timing_congr : (enterVblank s).timing = (enterVblank u).timing := by
  have hlatch : State.timing { setMode .vblank s with vblankPending := true } =
      State.timing { setMode .vblank u with vblankPending := true } :=
    congrArg (fun t : Timing => { t with vblankPending := true }) (setMode_timing_congr h .vblank)
  exact requestStat_timing_congr hlatch 4

theorem transition_timing_congr (l k : Nat) :
    (transition l k s).timing = (transition l k u).timing := by
  unfold transition
  split_ifs
  · exact requestStat_timing_congr (setMode_timing_congr h .search) 5
  · exact enterDraw_timing_congr h
  · exact requestStat_timing_congr (setMode_timing_congr h .hblank) 3
  · exact h
  · exact enterVblank_timing_congr h
  · exact h

theorem requestCoincidence_timing_congr (k : Nat) :
    (requestCoincidence k s).timing = (requestCoincidence k u).timing := by
  have hstat : s.stat = u.stat := congrArg Timing.stat h
  unfold requestCoincidence
  rw [hstat]
  split
  · exact requestStat_timing_congr h 6
  · exact h

theorem schedStep_timing_congr : (schedStep s).timing = (schedStep u).timing := by
  have hcounter : s.counter = u.counter := congrArg Timing.counter h
  have hline : s.line = u.line := congrArg (· / Config.lineCycles) hcounter
  have hoffset : s.offset = u.offset := congrArg (· % Config.lineCycles) hcounter
  unfold schedStep
  rw [hline, hoffset]
  exact requestCoincidence_timing_congr (updateCoincidence_timing_congr
    (transition_timing_congr (enterLine_timing_congr h _) _ _)) _

theorem quantum_timing_congr : (quantum s).timing = (quantum u).timing := by
  have hadvance : (advanceCounter s).timing = (advanceCounter u).timing := by
    rw [advanceCounter_timing, advanceCounter_timing, h]
  exact schedStep_timing_congr hadvance

theorem quanta_timing_congr (k : Nat) : (quanta k s).timing = (quanta k u).timing := by
  induction k generalizing s u with
  | zero => exact h
  | succ k ih => exact ih (quantum_timing_congr h)

theorem advance_timing_congr (n : Nat) : (advance n s).timing = (advance n u).timing := by
  have hresidue : s.residue = u.residue := congrArg Timing.residue h
  unfold advance
  rw [hresidue]
  exact quanta_timing_congr
    (congrArg (fun t : Timing => { t with residue := advResidue u.residue n }) h) _

end

/-- Settles O32: ADV answers the advanced block acknowledged, in every state, and the advance takes
equal timing parts to equal timing parts. -/
theorem timingIgnoresTheDisplay : Obligations.TimingIgnoresTheDisplay := by
  intro n s u h
  exact ⟨_, _, execAdv_eq n s, execAdv_eq n u, advance_timing_congr h n⟩

end Sys2Proof.Machine
end

section
/-! PROOFS. Colour indices and shades (42_compositor.md R192, R193). -/

namespace Sys2Proof.Machine

/-- A colour index as its bits: the low plane's bit, then the high plane's. -/
theorem colour_eq_bit (lo hi : Byte) (c : Nat) :
    colour lo hi c = Nat.bit (lo.getLsbD (7 - c)) (Nat.bit (hi.getLsbD (7 - c)) 0) := by
  simp [Nat.bit_val, colour]

theorem colour_testBit_zero (lo hi : Byte) (c : Nat) :
    (colour lo hi c).testBit 0 = lo.getLsbD (7 - c) := by
  rw [colour_eq_bit, Nat.testBit_bit_zero]

theorem colour_testBit_one (lo hi : Byte) (c : Nat) :
    (colour lo hi c).testBit 1 = hi.getLsbD (7 - c) := by
  rw [colour_eq_bit, Nat.testBit_bit_succ, Nat.testBit_bit_zero]

theorem shade_getLsbD (bgp : Byte) (ci j : Nat) (hj : j < 2) :
    (shade bgp ci).getLsbD j = bgp.getLsbD (2 * ci + j) := by
  simp [shade, hj]

/-- Settles O34: a colour index is the pair of its planes' bits, and a shade is cut out of the
palette at twice the index. -/
theorem colourIndexAndPalette : Obligations.ColourIndexAndPalette :=
  ⟨fun lo hi c _ => ⟨colour_lt lo hi c, colour_testBit_zero lo hi c, colour_testBit_one lo hi c⟩,
    fun bgp ci j _ hj => shade_getLsbD bgp ci j hj⟩

end Sys2Proof.Machine
end

section
/-! PROOFS. What COMPOSE writes and reads (42_compositor.md R181, R196, R198), by the display gate. -/

namespace Sys2Proof.Machine

/-- COMPOSE with the display off (42_compositor.md R181). -/
theorem compose_of_display_off (ly : Nat) (s : State) (h : displayEnable s.lcdc = false) :
    compose ly s = s := by
  rw [compose, if_neg (Bool.eq_false_iff.1 h)]

/-- WC after COMPOSE: the window is shown when its layer places a pixel (42_compositor.md R196). -/
theorem compose_wc (ly : Nat) (s : State) : (compose ly s).wc =
    if displayEnable s.lcdc = true ∧ windowEnable s.lcdc = true ∧ s.wy.toNat ≤ ly ∧ s.wx.toNat < 167 then
      s.wc + 1
    else s.wc := by
  cases hdisplay : displayEnable s.lcdc
  · rw [compose_of_display_off ly s hdisplay]
    simp
  · simp only [compose_of_display ly s hdisplay, windowPlacements_eq_nil, ite_not, true_and]

/-- COMPOSE writes FB and WC at most. -/
theorem compose_eq_screen_update (ly : Nat) (s : State) :
    compose ly s = { s with fb := (compose ly s).fb, wc := (compose ly s).wc } := by
  cases hdisplay : displayEnable s.lcdc
  · rw [compose_of_display_off ly s hdisplay]
  · rw [compose_of_display ly s hdisplay]

theorem compose_pixel_of_ne (ly y x : Nat) (s : State) (hy : y ≠ ly) :
    (compose ly s).fb.pixel y x = s.fb.pixel y x := by
  cases hdisplay : displayEnable s.lcdc
  · rw [compose_of_display_off ly s hdisplay]
  · have hrow : ¬(y = ly ∧ y < 144) := fun h => hy h.1
    rw [compose_of_display ly s hdisplay, Frame.pixel_setIfInBounds, if_neg hrow]

/-- OAM and the object palettes are not read by COMPOSE: they are carried through it. -/
theorem compose_object_state (ly : Nat) (m : Memory) (a b : Byte) (s : State) :
    compose ly { s with oam := m, obp0 := a, obp1 := b } =
      { compose ly s with oam := m, obp0 := a, obp1 := b } := by
  cases hdisplay : displayEnable s.lcdc
  · rw [compose_of_display_off ly s hdisplay, compose_of_display_off ly _ (by exact hdisplay)]
  · rw [compose_of_display ly s hdisplay, compose_of_display ly _ (by exact hdisplay)]
    rfl

/-- Settles O38: bit 7 of LCDC is the display gate. -/
theorem composeDoesNothingWithTheDisplayOff : Obligations.ComposeDoesNothingWithTheDisplayOff :=
  fun s ly hgate => compose_of_display_off ly s hgate

/-- Settles O36: the display gate, and the condition for the window layer to place a pixel. -/
theorem windowCounterAdvancesOnlyWhenShown : Obligations.WindowCounterAdvancesOnlyWhenShown :=
  fun s ly => compose_wc ly s

/-- Settles O37: the frame of COMPOSE, the rows it does not draw, and what it does not read. -/
theorem composeWritesOnlyItsRowAndTheWindowCounter :
    Obligations.ComposeWritesOnlyItsRowAndTheWindowCounter :=
  fun s ly => ⟨compose_eq_screen_update ly s, fun y x hy => compose_pixel_of_ne ly y x s hy,
    fun m a b => compose_object_state ly m a b s⟩

end Sys2Proof.Machine
end

section
/-! PROOFS. The frame pump: ADV's quanta and remainder, the wrap and its hand-off, TAKEEV
(43_frame_pump.md R220 to R227). -/

namespace Sys2Proof.Machine

/-! ### ADV and TAKEEV -/

/-- A run of quanta appends no response, so the acknowledgement of an ADV follows the responses
already given. -/
@[simp] theorem advance_responses (n : Nat) (s : State) : (advance n s).responses = s.responses :=
  quanta_responses _ _

/-- The remainder short of a whole quantum is kept (43_frame_pump.md R220). -/
theorem advance_residue (n : Nat) (s : State) : (advance n s).residue = (s.residue + n) % 4 :=
  quanta_residue _ _

/-- Settles O40: ADV answers the advanced block acknowledged, since its defensive check answers
nothing, and the advance is the run of quanta that R220 counts. -/
theorem advanceRunsItsQuantaAndKeepsTheRemainder :
    Obligations.AdvanceRunsItsQuantaAndKeepsTheRemainder := by
  intro n s a d
  have hexec : exec (.adv n) s =
      .next { advance n s with responses := s.responses ++ [.ack] } := by
    rw [← advance_responses n s]
    exact execAdv_eq n s
  exact ⟨decode_of_opField_two (opField_commandWord 2 a), advance n s, rfl, advance_residue n s, hexec⟩

/-- Settles O49: TAKEEV's word is decoded by its code, and its response is the old flag as one bit. -/
theorem takeevReadsAndClearsTheFlag : Obligations.TakeevReadsAndClearsTheFlag := by
  intro s a d n
  have hbit : BitVec.ofBool s.eventsReady = if s.eventsReady then 1 else 0 := by
    cases s.eventsReady <;> rfl
  have hexec : exec .takeev s =
      .next (respond (.ev (BitVec.ofBool s.eventsReady)) { s with eventsReady := false }) := rfl
  rw [hbit] at hexec
  exact ⟨decode_of_opField_four (opField_commandWord 4 a), hexec⟩

/-! ### The wrap -/

/-- A quantum short of the wrap is the scheduler's step at the advanced counter. -/
theorem quantum_of_lt (s : State) (h : s.counter + 4 < 70224) :
    quantum s = schedStep { s with counter := s.counter + 4 } := by
  rw [quantum, advanceCounter_of_lt s h]

/-- A quantum at the wrap hands the frame off before the scheduler's step. -/
theorem quantum_of_wrap (s : State) (h : 70224 ≤ s.counter + 4) :
    quantum s = schedStep (handoff { s with counter := s.counter + 4 - 70224 }) := by
  rw [quantum, advanceCounter_of_wrap s h]

/-- A step away from the mode-3 entry of a visible line draws nothing (41_mode_scheduler.md R155). -/
theorem schedStep_fb_of_not_draw (s : State) (h : ¬(s.line < 144 ∧ s.offset = 80)) :
    (schedStep s).fb = s.fb := by
  rw [schedStep_fb, (transition_screen _ _ _).1, if_neg h, enterLine_fb]

/-- The first 80 cycles of the frame are before the mode-3 entry of line 0. -/
theorem offset_ne_of_counter_lt (s : State) (h : s.counter < 80) : s.offset ≠ 80 := by
  have hoffset : s.offset = s.counter % 456 := rfl
  omega

/-- Settles O42: below the frame's end the counter plus 4 is its own remainder, and at the wrap it is
less than a frame above it. -/
theorem quantumAdvancesTheCounterModuloTheFrame :
    Obligations.QuantumAdvancesTheCounterModuloTheFrame := by
  intro s hcounter
  rw [quantum_counter]
  split <;> omega

/-- Settles O43: the scheduler's step neither emits nor touches the flag, and after the wrap it is too
early in line 0 to draw on the cleared frame. -/
theorem handoffHappensAtTheWrapOnly : Obligations.HandoffHappensAtTheWrapOnly := by
  intro s hcounter
  constructor
  case left =>
    intro hwrap
    have hearly : (handoff { s with counter := s.counter + 4 - 70224 }).counter < 80 :=
      show s.counter + 4 - 70224 < 80 by omega
    rw [quantum_of_wrap s hwrap]
    exact ⟨schedStep_frameOut _,
      schedStep_fb_of_not_draw _ fun h => offset_ne_of_counter_lt _ hearly h.2,
      schedStep_eventsReady _⟩
  case right =>
    intro hlt
    rw [quantum_of_lt s hlt]
    exact ⟨schedStep_frameOut _, schedStep_eventsReady _⟩

end Sys2Proof.Machine
end

section
/-! PROOFS. Reserved command codes (60_exceptions.md R252). -/

namespace Sys2Proof.Machine

/-- Command codes 6 and 7 are decoded by the code alone, as the instruction that carries it
(30_encoding.md R86). -/
theorem decode_of_opField_reserved (t : Transaction) (h : opField t.cw = 6 ∨ opField t.cw = 7) :
    decode t = .reserved (opField t.cw) := by
  obtain h | h := h <;> simp [decode, h]

/-- The reserved instruction is refused by its code before the state is looked at. -/
theorem exec_reserved (op : BitVec 3) (s : State) :
    exec (.reserved op) s = .refused (.reservedCommand op) := rfl

/-- Settles O11: a reserved code is decoded to the reserved instruction, which is refused. -/
theorem reservedCommandsAreRefused : Obligations.ReservedCommandsAreRefused := by
  refine ⟨exec_reserved, fun t s hop => ?_⟩
  rw [decode_of_opField_reserved t hop, exec_reserved]

end Sys2Proof.Machine
end

section
/-! PROOFS. Status requests (60_exceptions.md R243). -/

namespace Sys2Proof.Machine

/-- Settles O27: the two clauses are the branches of `request_stat`, whose guard is R243's condition. -/
theorem statusRequestSucceedsOnlyWhenEnabledAndFirst :
    Obligations.StatusRequestSucceedsOnlyWhenEnabledAndFirst := by
  intro b s
  constructor
  case left =>
    intro hsucceeds
    rw [requestStat, if_pos hsucceeds]
  case right =>
    intro hfails
    rw [requestStat, if_neg hfails]

end Sys2Proof.Machine
end

section
/-! PROOFS. Decoding and encoding are inverse to each other (30_encoding.md R81 to R89). -/

namespace Sys2Proof

/-! ### RD and WR by what their address selects -/

@[simp] theorem decodeRead_vramAddress (o : BitVec 13) : decodeRead (vramAddress o) = .rdVram o := by
  simp [decodeRead]

@[simp] theorem decodeWrite_vramAddress (o : BitVec 13) (d : Byte) :
    decodeWrite (vramAddress o) d = .wrVram o d := by
  simp [decodeWrite]

theorem decodeRead_oamAddress (o : Byte) (ho : o.toNat < Config.oamSize) :
    decodeRead (oamAddress o) = .rdOam o := by
  simp [decodeRead, busTarget_oamAddress o ho]

theorem decodeWrite_oamAddress (o d : Byte) (ho : o.toNat < Config.oamSize) :
    decodeWrite (oamAddress o) d = .wrOam o d := by
  simp [decodeWrite, busTarget_oamAddress o ho]

@[simp] theorem decodeRead_address (r : BusReg) : decodeRead r.address = decodeReadRegister r := by
  simp [decodeRead]

@[simp] theorem decodeWrite_address (r : BusReg) (d : Byte) :
    decodeWrite r.address d = decodeWriteRegister d r := by
  simp [decodeWrite]

theorem busTarget_of_unmapped (a : Addr) (h : mapped a = false) : busTarget a = .unmapped :=
  not_not.1 fun hne => Bool.eq_false_iff.1 h ((mapped_iff_target a).2 hne)

theorem decodeRead_of_unmapped (a : Addr) (h : mapped a = false) : decodeRead a = .rdUnmapped a := by
  simp [decodeRead, busTarget_of_unmapped a h]

theorem decodeWrite_of_unmapped (a : Addr) (d : Byte) (h : mapped a = false) :
    decodeWrite a d = .wrUnmapped a d := by
  simp [decodeWrite, busTarget_of_unmapped a h]

/-- Every address is a VRAM byte's, an OAM byte's, a register's, or unmapped (20_memory.md R62). -/
theorem address_cases (a : Addr) :
    (∃ o : BitVec 13, a = vramAddress o) ∨ (∃ o : Byte, o.toNat < Config.oamSize ∧ a = oamAddress o) ∨
    (∃ r : BusReg, a = r.address) ∨ mapped a = false := by
  rcases busTarget_cases a with ⟨o, -, ha⟩ | ⟨o, -, ho, ha⟩ | ⟨r, -, ha⟩ | ⟨htarget, -⟩
  · exact .inl ⟨o, ha⟩
  · exact .inr (.inl ⟨o, ho, ha⟩)
  · exact .inr (.inr (.inl ⟨r, ha⟩))
  · exact .inr (.inr (.inr (Bool.eq_false_iff.2 fun h => (mapped_iff_target a).1 h htarget)))

/-! ### The round trips -/

theorem wfUnmapped_iff (a : Addr) : wfUnmapped a = true ↔ mapped a = false := by
  simp [wfUnmapped]

theorem wfReserved_cases (op : BitVec 3) (h : wfReserved op = true) : op = 6 ∨ op = 7 := by
  revert op
  decide

/-- Settles O1: the address of a bus transaction selects what it was made from, and a port command is
decoded by its code. -/
theorem decodeOfEncodeIsIdentity : Obligations.DecodeOfEncodeIsIdentity := by
  intro i hwf
  have hregisterRead (r : BusReg) : decode (encodeRead r.address) = decodeReadRegister r := by simp
  have hregisterWrite (r : BusReg) (d : Byte) :
      decode (encodeWrite r.address d) = decodeWriteRegister d r := by simp
  have hport (op : BitVec 3) (n : Nat) : opField (encodePort op n).cw = op := opField_commandWord op 0
  cases i with
  | rdVram o => exact (decode_encodeRead _).trans (decodeRead_vramAddress o)
  | wrVram o d => exact (decode_encodeWrite _ d).trans (decodeWrite_vramAddress o d)
  | rdOam o => exact (decode_encodeRead _).trans (decodeRead_oamAddress o (of_decide_eq_true hwf))
  | wrOam o d => exact (decode_encodeWrite _ d).trans (decodeWrite_oamAddress o d (of_decide_eq_true hwf))
  | rdUnmapped a =>
    exact (decode_encodeRead a).trans (decodeRead_of_unmapped a ((wfUnmapped_iff a).1 hwf))
  | wrUnmapped a d =>
    exact (decode_encodeWrite a d).trans (decodeWrite_of_unmapped a d ((wfUnmapped_iff a).1 hwf))
  | adv n => exact decode_of_opField_two (hport 2 n)
  | poll => exact decode_of_opField_three (hport 3 0)
  | takeev => exact decode_of_opField_four (hport 4 0)
  | reset => exact decode_of_opField_five (hport 5 0)
  | reserved op =>
    have hcode : opField (encode (.reserved op)).cw = op := hport op 0
    have hop : op = 6 ∨ op = 7 := wfReserved_cases op hwf
    rw [Machine.decode_of_opField_reserved _ (by rwa [hcode]), hcode]
  | rdLcdc => exact hregisterRead .lcdc
  | rdStat => exact hregisterRead .stat
  | rdScy => exact hregisterRead .scy
  | rdScx => exact hregisterRead .scx
  | rdLy => exact hregisterRead .ly
  | rdLyc => exact hregisterRead .lyc
  | rdBgp => exact hregisterRead .bgp
  | rdObp0 => exact hregisterRead .obp0
  | rdObp1 => exact hregisterRead .obp1
  | rdWy => exact hregisterRead .wy
  | rdWx => exact hregisterRead .wx
  | wrLcdc d => exact hregisterWrite .lcdc d
  | wrStat d => exact hregisterWrite .stat d
  | wrScy d => exact hregisterWrite .scy d
  | wrScx d => exact hregisterWrite .scx d
  | wrLy d => exact hregisterWrite .ly d
  | wrLyc d => exact hregisterWrite .lyc d
  | wrBgp d => exact hregisterWrite .bgp d
  | wrObp0 d => exact hregisterWrite .obp0 d
  | wrObp1 d => exact hregisterWrite .obp1 d
  | wrWy d => exact hregisterWrite .wy d
  | wrWx d => exact hregisterWrite .wx d

/-- Settles O5: the decoder keeps the whole address, as an offset, a register or itself. -/
theorem busWordsReencodeToThemselves : Obligations.BusWordsReencodeToThemselves := by
  intro a d
  rw [decode_encodeRead, decode_encodeWrite]
  rcases address_cases a with ⟨o, rfl⟩ | ⟨o, ho, rfl⟩ | ⟨r, rfl⟩ | hunmapped
  · rw [decodeRead_vramAddress, decodeWrite_vramAddress]
    exact ⟨rfl, rfl⟩
  · rw [decodeRead_oamAddress o ho, decodeWrite_oamAddress o d ho]
    exact ⟨rfl, rfl⟩
  · rw [decodeRead_address, decodeWrite_address]
    cases r <;> exact ⟨rfl, rfl⟩
  · rw [decodeRead_of_unmapped a hunmapped, decodeWrite_of_unmapped a d hunmapped]
    exact ⟨rfl, rfl⟩

/-! ### What the decoder gives -/

theorem decode_of_opField_zero {t : Transaction} (h : opField t.cw = 0) :
    decode t = decodeRead (addrField t.cw) := by
  simp [decode, h]

theorem decode_of_opField_one {t : Transaction} (h : opField t.cw = 1) :
    decode t = decodeWrite (addrField t.cw) t.data := by
  simp [decode, h]

/-- The command codes (30_encoding.md R82, R86). -/
theorem opField_cases (cw : CommandWord) : opField cw = 0 ∨ opField cw = 1 ∨ opField cw = 2 ∨
    opField cw = 3 ∨ opField cw = 4 ∨ opField cw = 5 ∨ (opField cw = 6 ∨ opField cw = 7) := by
  generalize opField cw = op
  revert op
  decide

theorem decodeRead_wf (a : Addr) : (decodeRead a).wf = true := by
  rcases address_cases a with ⟨o, rfl⟩ | ⟨o, ho, rfl⟩ | ⟨r, rfl⟩ | hunmapped
  · rw [decodeRead_vramAddress]; rfl
  · rw [decodeRead_oamAddress o ho]; exact decide_eq_true ho
  · rw [decodeRead_address]; cases r <;> rfl
  · rw [decodeRead_of_unmapped a hunmapped]; exact (wfUnmapped_iff a).2 hunmapped

theorem decodeWrite_wf (a : Addr) (d : Byte) : (decodeWrite a d).wf = true := by
  rcases address_cases a with ⟨o, rfl⟩ | ⟨o, ho, rfl⟩ | ⟨r, rfl⟩ | hunmapped
  · rw [decodeWrite_vramAddress]; rfl
  · rw [decodeWrite_oamAddress o d ho]; exact decide_eq_true ho
  · rw [decodeWrite_address]; cases r <;> rfl
  · rw [decodeWrite_of_unmapped a d hunmapped]; exact (wfUnmapped_iff a).2 hunmapped

/-- Settles O2, by the command code; only RD, WR and the reserved codes have a bound to meet. -/
theorem decodedTransactionsAreWellFormed : Obligations.DecodedTransactionsAreWellFormed := by
  intro t
  rcases opField_cases t.cw with h | h | h | h | h | h | h
  · rw [decode_of_opField_zero h]; exact decodeRead_wf _
  · rw [decode_of_opField_one h]; exact decodeWrite_wf _ _
  · rw [decode_of_opField_two h]; rfl
  · rw [decode_of_opField_three h]; rfl
  · rw [decode_of_opField_four h]; rfl
  · rw [decode_of_opField_five h]; rfl
  · rw [Machine.decode_of_opField_reserved t h]
    rcases h with h | h <;> rw [h] <;> rfl

end Sys2Proof
end

section
/-! PROOFS. What a transaction other than ADV and RESET keeps, and how an invariant of the block's
position is carried over a step (40_register_bank.md R128, 10_state.md R49). -/

namespace Sys2Proof.Machine

/-- What the scheduler and the compositor own is in `t` as it was in `s`: all that they write but the
latches, and the bits of STAT that the bus does not write. -/
structure SchedulerKept (s t : State) : Prop where
  counter : t.counter = s.counter
  residue : t.residue = s.residue
  blockStatIrqs : t.blockStatIrqs = s.blockStatIrqs
  ly : t.ly = s.ly
  statLow : t.stat.extractLsb' 0 3 = s.stat.extractLsb' 0 3
  statTop : t.stat.getLsbD 7 = s.stat.getLsbD 7
  wc : t.wc = s.wc
  fb : t.fb = s.fb

/-- MODE is bits 1:0 of the bits that the bus does not write. -/
theorem SchedulerKept.statMode {s t : State} (h : SchedulerKept s t) :
    statMode t.stat = statMode s.stat := by
  have hnested (v : Byte) : Machine.statMode v = (v.extractLsb' 0 3).extractLsb' 0 2 := by
    ext i hi
    simp [Machine.statMode]
  rw [hnested, hnested, h.statLow]

/-- A bus write of a register, STAT included. -/
theorem busWrite_keeps_scheduler (s : State) (d : Byte) (r : BusReg) :
    SchedulerKept s (s.busWrite d r) := by
  obtain ⟨-, hlow, htop⟩ := withEnables_fields s.stat d
  cases r
  case stat => exact ⟨rfl, rfl, rfl, rfl, hlow, htop, rfl, rfl⟩
  all_goals exact ⟨rfl, rfl, rfl, rfl, rfl, rfl, rfl, rfl⟩

/-- Every transaction but ADV and RESET leaves alone what the scheduler and the compositor own. -/
theorem exec_keeps_scheduler {i : Instr} {s t : State} (h : exec i s = .next t) (hreset : i ≠ .reset)
    (hadv : ∀ n, i ≠ .adv n) : SchedulerKept s t := by
  rcases exec_next_cases i s t h with ⟨r, rfl⟩ | ⟨o, d, -, rfl⟩ | ⟨o, d, -, rfl⟩ | ⟨r, d, -, -, rfl⟩ |
    ⟨n, rfl, -⟩ | ⟨-, rfl⟩ | ⟨-, rfl⟩ | ⟨rfl, -⟩
  · exact ⟨rfl, rfl, rfl, rfl, rfl, rfl, rfl, rfl⟩
  · exact ⟨rfl, rfl, rfl, rfl, rfl, rfl, rfl, rfl⟩
  · exact ⟨rfl, rfl, rfl, rfl, rfl, rfl, rfl, rfl⟩
  · obtain ⟨hcounter, hresidue, hblock, hly, hlow, htop, hwc, hfb⟩ := busWrite_keeps_scheduler s d r
    exact ⟨hcounter, hresidue, hblock, hly, hlow, htop, hwc, hfb⟩
  · exact absurd rfl (hadv n)
  · exact ⟨rfl, rfl, rfl, rfl, rfl, rfl, rfl, rfl⟩
  · exact ⟨rfl, rfl, rfl, rfl, rfl, rfl, rfl, rfl⟩
  · exact absurd rfl hreset

/-- Settles O52: the counter and the residue are the scheduler's. -/
theorem counterMovesOnlyByAdvanceOrReset : Obligations.CounterMovesOnlyByAdvanceOrReset := by
  intro i s t h hreset hadv
  have hkept := exec_keeps_scheduler h hreset hadv
  exact ⟨hkept.counter, hkept.residue⟩

/-- What holds at reset, is kept by a quantum and by a residue below a quantum, and speaks only of
what the scheduler and the compositor own, is kept by every step. -/
theorem step_induction (P : State → Prop) (hkept : ∀ s t, SchedulerKept s t → P s → P t)
    (hresidue : ∀ s r, r < 4 → P s → P { s with residue := r })
    (hquantum : ∀ s, P s → P (quantum s)) (hreset : P State.reset)
    {s t : State} (hstep : step s = .next t) (hs : P s) : P t := by
  have hrespond (r : Response) (u : State) (hu : P u) : P (respond r u) :=
    hkept u _ ⟨rfl, rfl, rfl, rfl, rfl, rfl, rfl, rfl⟩ hu
  rcases step_cases s _ hstep with ⟨-, heq⟩ | ⟨tr, rest, -, heq⟩
  · cases heq
    exact hs
  · have hexec : exec (decode tr) { s with port := rest } = .next t := heq.symm
    have htaken : P { s with port := rest } := hkept s _ ⟨rfl, rfl, rfl, rfl, rfl, rfl, rfl, rfl⟩ hs
    generalize decode tr = i at hexec
    by_cases hi : i = .reset
    · subst hi
      cases hexec
      exact hrespond _ _ (hkept State.reset _ ⟨rfl, rfl, rfl, rfl, rfl, rfl, rfl, rfl⟩ hreset)
    · by_cases hadv : ∃ n, i = .adv n
      · obtain ⟨n, rfl⟩ := hadv
        have heq := (execAdv_eq n _).symm.trans hexec
        cases heq
        exact hrespond _ _ (quanta_induction hquantum _ _
          (hresidue _ _ (Nat.mod_lt _ (by decide)) htaken))
      · exact hkept _ _ (exec_keeps_scheduler hexec hi fun n h => hadv ⟨n, h⟩) htaken

end Sys2Proof.Machine
end

section
/-! PROOFS. The position and the mode are kept legal by every step (10_state.md R28, R40, R46, R48). -/

namespace Sys2Proof.Machine

/-! ### The step's position -/

/-- Settles O24: a line of the frame is below 154, so its number fits LY. -/
theorem schedulerWritesTheDerivedLine : Obligations.SchedulerWritesTheDerivedLine := by
  intro s hcounter
  have hline : (schedStep s).ly.toNat = s.counter / 456 := by
    rw [schedStep_ly, BitVec.toNat_ofNat]
    exact Nat.mod_eq_of_lt (show s.counter / 456 < 256 by omega)
  exact ⟨hline, by omega⟩

theorem quantum_counter_lt (s : State) (h : s.counter < 70224) : (quantum s).counter < 70224 := by
  rw [quantumAdvancesTheCounterModuloTheFrame s h]
  exact Nat.mod_lt _ (by decide)

/-- LY after a quantum is the line reached. -/
theorem quantum_ly (s : State) (h : s.counter < 70224) :
    (quantum s).ly.toNat = (quantum s).counter / 456 := by
  have hadvanced : (advanceCounter s).counter < 70224 := by
    simpa [quantum] using quantum_counter_lt s h
  simpa [quantum] using (schedulerWritesTheDerivedLine (advanceCounter s) hadvanced).1

/-- MODE after a quantum, by the position reached (41_mode_scheduler.md R154 to R158). -/
theorem quantum_mode (s : State) : statMode (quantum s).stat =
    if (quantum s).counter / 456 < 144 then
      if (quantum s).counter % 456 = 0 then 2
      else if (quantum s).counter % 456 = 80 then 3
      else if (quantum s).counter % 456 = 252 then 0
      else statMode s.stat
    else if (quantum s).counter / 456 = 144 ∧ (quantum s).counter % 456 = 0 then 1
    else statMode s.stat := by
  have h := (modeChangesOnlyAtTheTransitions (advanceCounter s)).1
  simpa [quantum, statMode] using h

theorem quantum_stat_top (s : State) :
    (quantum s).stat.extractLsb' 3 5 = s.stat.extractLsb' 3 5 := by
  rw [quantum, schedStep_stat_top, advanceCounter_stat]

/-! ### The tabled mode -/

theorem modeAt_eq (c : Nat) : modeAt c =
    if c / 456 < 144 then
      if c % 456 < 80 then .search else if c % 456 < 252 then .draw else .hblank
    else .vblank := rfl

/-- Between the transitions the tabled mode stands (10_state.md R48). -/
theorem modeAt_add_four (c : Nat) (haligned : c % 4 = 0)
    (hvisible : (c + 4) / 456 < 144 →
      (c + 4) % 456 ≠ 0 ∧ (c + 4) % 456 ≠ 80 ∧ (c + 4) % 456 ≠ 252)
    (hvblank : c + 4 ≠ 65664) : modeAt (c + 4) = modeAt c := by
  rw [modeAt_eq, modeAt_eq]
  by_cases hline : (c + 4) / 456 < 144
  · obtain ⟨hsearch, hdraw, hhblank⟩ := hvisible hline
    have hline' : c / 456 < 144 := by omega
    have hsearch' : (c + 4) % 456 < 80 ↔ c % 456 < 80 := by omega
    have hdraw' : (c + 4) % 456 < 252 ↔ c % 456 < 252 := by omega
    simp only [hline, hline', hsearch', hdraw']
  · have hline' : ¬ c / 456 < 144 := by omega
    rw [if_neg hline, if_neg hline']

/-- The mode after a quantum is the tabled one, or still 0 on the first line after reset. -/
theorem quantum_modeHeld (s : State) (h : TimingOk s) :
    statMode (quantum s).stat = (modeAt (quantum s).counter).bits ∨
      ((quantum s).counter < 80 ∧ statMode (quantum s).stat = Mode.hblank.bits) := by
  have hframe : s.counter < 70224 := h.counterInFrame
  have haligned : s.counter % 4 = 0 := h.counterAligned
  have hcounter := quantumAdvancesTheCounterModuloTheFrame s hframe
  rw [quantum_mode]
  generalize (quantum s).counter = c at *
  have hold (hvisible : c / 456 < 144 → c % 456 ≠ 0 ∧ c % 456 ≠ 80 ∧ c % 456 ≠ 252)
      (hvblank : c ≠ 65664) : statMode s.stat = (modeAt c).bits ∨
        (c < 80 ∧ statMode s.stat = Mode.hblank.bits) := by
    obtain rfl : c = s.counter + 4 := by omega
    rw [modeAt_add_four s.counter haligned hvisible hvblank]
    refine h.modeHeld.imp_right fun ⟨hearly, hmode⟩ => ⟨?_, hmode⟩
    have hearly : s.counter < 80 := hearly
    omega
  split_ifs with hvisible hsearch hdraw hhblank hvblank
  · left; rw [modeAt_eq, if_pos hvisible, if_pos (by omega)]; rfl
  · left; rw [modeAt_eq, if_pos hvisible, if_neg (by omega), if_pos (by omega)]; rfl
  · left; rw [modeAt_eq, if_pos hvisible, if_neg (by omega), if_neg (by omega)]; rfl
  · exact hold (fun _ => ⟨hsearch, hdraw, hhblank⟩) (by omega)
  · left; rw [modeAt_eq, if_neg hvisible]; rfl
  · exact hold (fun hlt => absurd hlt hvisible) (by omega)

/-! ### The invariant -/

theorem TimingOk.of_schedulerKept {s t : State} (hkept : SchedulerKept s t) (h : TimingOk s) :
    TimingOk t where
  counterInFrame := hkept.counter ▸ h.counterInFrame
  counterAligned := hkept.counter ▸ h.counterAligned
  residueSmall := hkept.residue ▸ h.residueSmall
  lineHeld := by rw [State.line, hkept.counter, hkept.ly]; exact h.lineHeld
  statTop := hkept.statTop.trans h.statTop
  modeHeld := by rw [hkept.counter, hkept.statMode]; exact h.modeHeld

theorem TimingOk.of_residue {s : State} {r : Nat} (hr : r < 4) (h : TimingOk s) :
    TimingOk { s with residue := r } :=
  ⟨h.counterInFrame, h.counterAligned, hr, h.lineHeld, h.statTop, h.modeHeld⟩

theorem quantum_keeps_timing (s : State) (h : TimingOk s) : TimingOk (quantum s) where
  counterInFrame := quantum_counter_lt s h.counterInFrame
  counterAligned := by
    have haligned : s.counter % 4 = 0 := h.counterAligned
    rw [quantumAdvancesTheCounterModuloTheFrame s h.counterInFrame]
    show (s.counter + 4) % 70224 % 4 = 0
    omega
  residueSmall := by rw [quantum_residue]; exact h.residueSmall
  lineHeld := quantum_ly s h.counterInFrame
  statTop := (getLsbD_of_top _ _ (quantum_stat_top s) 7 (by decide)).trans h.statTop
  modeHeld := quantum_modeHeld s h

theorem reset_timing : TimingOk State.reset :=
  ⟨by decide, by decide, by decide, by decide, by decide, .inr (by decide)⟩

/-- Settles O58: the invariant speaks of what the scheduler owns, holds at reset and is kept by a
quantum. -/
theorem everyStepKeepsTheTiming : Obligations.EveryStepKeepsTheTiming :=
  fun _ _ hs hstep => step_induction TimingOk (fun _ _ => TimingOk.of_schedulerKept)
    (fun _ _ => TimingOk.of_residue) quantum_keeps_timing reset_timing hstep hs

end Sys2Proof.Machine
end

section
/-! PROOFS. What a quantum shows: blank at the wrap, a line drawn at its mode-3 entry, else nothing new
(41_mode_scheduler.md R152, R155, 43_frame_pump.md R225). -/

namespace Sys2Proof.Machine

/-- A scanline that is already LY's changes nothing but LY, which it writes again. -/
theorem enterLine_of_held (l : Nat) (s : State) (h : l = s.ly.toNat) :
    enterLine l s = { s with ly := BitVec.ofNat 8 l } := by
  rw [enterLine, lineChange, if_pos h]

/-- A step away from a mode-3 entry moves WC only by the scanline change. -/
theorem schedStep_wc_of_not_draw (s : State) (h : ¬(s.line < 144 ∧ s.offset = 80)) :
    (schedStep s).wc = if s.line = 0 ∧ s.ly.toNat ≠ 0 then 0 else s.wc := by
  rw [schedStep_wc, (transition_screen _ _ _).2, if_neg h, enterLine_wc]

/-- The step at the mode-3 entry of the line that LY holds composes that line. -/
theorem schedStep_screen_of_draw (s : State) (hvisible : s.line < 144) (hoffset : s.offset = 80)
    (hly : s.ly.toNat = s.line) : (schedStep s).fb = (compose s.line s).fb ∧
      (schedStep s).wc = (compose s.line s).wc := by
  obtain ⟨hfb, hwc⟩ := transition_screen s.line s.offset (enterLine s.line s)
  have hrow : (BitVec.ofNat 8 s.line).toNat = s.line := by
    rw [BitVec.toNat_ofNat]
    exact Nat.mod_eq_of_lt (by omega)
  rw [schedStep_fb, schedStep_wc, hfb, hwc, if_pos ⟨hvisible, hoffset⟩, if_pos ⟨hvisible, hoffset⟩,
    enterLine_ly, hrow, enterLine_of_held s.line s hly.symm]
  exact compose_screen_of_position s.line s.counter (withMode s.stat .draw) (BitVec.ofNat 8 s.line) s

/-- What COMPOSE draws does not depend on the counter. -/
theorem compose_screen_of_counter (l c : Nat) (s : State) :
    (compose l { s with counter := c }).fb = (compose l s).fb ∧
    (compose l { s with counter := c }).wc = (compose l s).wc :=
  compose_screen_of_position l c s.stat s.ly s

theorem quantum_screen_of_wrap (s : State) (h : TimingOk s) (hwrap : 70224 ≤ s.counter + 4) :
    (quantum s).fb = Frame.blank ∧ (quantum s).wc = 0 := by
  have hframe : s.counter < 70224 := h.counterInFrame
  have hly : s.ly.toNat = s.counter / 456 := h.lineHeld
  have hline : (s.counter + 4 - 70224) / 456 = 0 := by omega
  have hnoDraw : ¬((s.counter + 4 - 70224) / 456 < 144 ∧ (s.counter + 4 - 70224) % 456 = 80) := by
    omega
  have hwc := schedStep_wc_of_not_draw (handoff { s with counter := s.counter + 4 - 70224 }) hnoDraw
  rw [if_pos ⟨hline, show s.ly.toNat ≠ 0 by omega⟩] at hwc
  refine ⟨((handoffHappensAtTheWrapOnly s hframe).1 hwrap).2.1, ?_⟩
  rw [quantum_of_wrap s hwrap, hwc]

theorem quantum_screen_of_draw (s : State) (h : TimingOk s) (l : Nat) (hl : l < 144)
    (hcounter : s.counter + 4 = 456 * l + 80) :
    (quantum s).fb = (compose l s).fb ∧ (quantum s).wc = (compose l s).wc := by
  have hly : s.ly.toNat = s.counter / 456 := h.lineHeld
  obtain rfl : l = (s.counter + 4) / 456 := by omega
  obtain ⟨hfb, hwc⟩ := schedStep_screen_of_draw { s with counter := s.counter + 4 } hl
    (show (s.counter + 4) % 456 = 80 by omega) (show s.ly.toNat = (s.counter + 4) / 456 by omega)
  obtain ⟨hfb', hwc'⟩ := compose_screen_of_counter ((s.counter + 4) / 456) (s.counter + 4) s
  rw [quantum_of_lt s (by omega)]
  exact ⟨hfb.trans hfb', hwc.trans hwc'⟩

theorem quantum_screen_of_no_draw (s : State) (h : TimingOk s) (hlt : s.counter + 4 < 70224)
    (hdraw : ∀ l, l < 144 → s.counter + 4 ≠ 456 * l + 80) :
    (quantum s).fb = s.fb ∧ (quantum s).wc = s.wc := by
  have hly : s.ly.toNat = s.counter / 456 := h.lineHeld
  have hnoDraw : ¬((s.counter + 4) / 456 < 144 ∧ (s.counter + 4) % 456 = 80) := fun ⟨hl, hoffset⟩ =>
    hdraw _ hl (by omega)
  have hnoRestart : ¬((s.counter + 4) / 456 = 0 ∧ s.ly.toNat ≠ 0) := by omega
  have hfb := schedStep_fb_of_not_draw { s with counter := s.counter + 4 } hnoDraw
  have hwc := schedStep_wc_of_not_draw { s with counter := s.counter + 4 } hnoDraw
  rw [quantum_of_lt s hlt]
  exact ⟨hfb, hwc.trans (if_neg hnoRestart)⟩

/-- Settles O30: WC in the three kinds of quantum. -/
theorem windowCounterRestartsAtLineZero : Obligations.WindowCounterRestartsAtLineZero :=
  fun s h => ⟨fun hwrap => (quantum_screen_of_wrap s h hwrap).2,
    fun l hl hcounter => (quantum_screen_of_draw s h l hl hcounter).2,
    fun hlt hdraw => (quantum_screen_of_no_draw s h hlt hdraw).2⟩

/-- Settles O46: FB in the three kinds of quantum. -/
theorem frameBufferChangesOnlyAtDrawOrWrap : Obligations.FrameBufferChangesOnlyAtDrawOrWrap :=
  fun s h => ⟨fun hwrap => (quantum_screen_of_wrap s h hwrap).1,
    fun l hl hcounter => (quantum_screen_of_draw s h l hl hcounter).1,
    fun hlt hdraw => (quantum_screen_of_no_draw s h hlt hdraw).1⟩

end Sys2Proof.Machine
end

section
/-! PROOFS. WC stays behind the composed lines and the rows ahead stay blank (42_compositor.md R196,
R197, 92_eei_decisions.md D29). -/

namespace Sys2Proof.Machine

/-! ### The composed lines at a counter value -/

theorem composesDone_eq (c : Nat) :
    composesDone c = min 144 (c / 456 + if 80 ≤ c % 456 then 1 else 0) := rfl

/-- Before the mode-3 entry of line `l`, the lines before it are composed. -/
theorem composesDone_before_draw (c l : Nat) (hl : l < 144) (hc : c + 4 = 456 * l + 80) :
    composesDone c = l := by
  rw [composesDone_eq, if_neg (by omega)]
  omega

/-- From the mode-3 entry of line `l` on, that line is composed too. -/
theorem composesDone_draw (l : Nat) (hl : l < 144) : composesDone (456 * l + 80) = l + 1 := by
  rw [composesDone_eq, if_pos (by omega)]
  omega

/-- Between the mode-3 entries no line is composed (41_mode_scheduler.md R167). -/
theorem composesDone_add_four (c : Nat) (haligned : c % 4 = 0)
    (hdraw : ∀ l, l < 144 → c + 4 ≠ 456 * l + 80) : composesDone (c + 4) = composesDone c := by
  have hdraw := hdraw ((c + 4) / 456)
  rw [composesDone_eq, composesDone_eq]
  split_ifs <;> omega

/-! ### The invariant -/

theorem ScreenOk.of_schedulerKept {s t : State} (hkept : SchedulerKept s t) (h : ScreenOk s) :
    ScreenOk t where
  windowBehind := by rw [hkept.wc, hkept.counter]; exact h.windowBehind
  rowsAheadBlank := by rw [hkept.fb, hkept.counter]; exact h.rowsAheadBlank

theorem ScreenOk.of_blank {s : State} (hfb : s.fb = Frame.blank) (hwc : s.wc = 0) : ScreenOk s where
  windowBehind := by rw [hwc]; exact Nat.zero_le _
  rowsAheadBlank y x _ _ _ := by rw [hfb]; exact Frame.pixel_blank y x

/-- A composed line moves WC by one at most (42_compositor.md R196). -/
theorem compose_wc_le (ly : Nat) (s : State) : (compose ly s).wc.toNat ≤ s.wc.toNat + 1 := by
  rw [compose_wc]
  split
  · exact Nat.mod_le _ _
  · omega

theorem quantum_keeps_screen_of_draw (s : State) (ht : TimingOk s) (h : ScreenOk s) (l : Nat)
    (hl : l < 144) (hcounter : s.counter + 4 = 456 * l + 80) : ScreenOk (quantum s) := by
  obtain ⟨hfb, hwc⟩ := quantum_screen_of_draw s ht l hl hcounter
  have hbefore : composesDone s.counter = l := composesDone_before_draw s.counter l hl hcounter
  have hafter : composesDone (quantum s).counter = l + 1 := by
    rw [quantum_counter, if_neg (by omega), hcounter, composesDone_draw l hl]
  constructor
  case windowBehind =>
    calc (quantum s).wc.toNat
      _ = (compose l s).wc.toNat := by rw [hwc]
      _ ≤ s.wc.toNat + 1 := compose_wc_le l s
      _ ≤ composesDone (quantum s).counter := by
        have := h.windowBehind
        omega
  case rowsAheadBlank =>
    intro y x hy hyScreen hx
    rw [hfb, compose_pixel_of_ne l y x s (by omega)]
    exact h.rowsAheadBlank y x (by omega) hyScreen hx

theorem quantum_keeps_screen_of_no_draw (s : State) (ht : TimingOk s) (h : ScreenOk s)
    (hlt : s.counter + 4 < 70224) (hdraw : ∀ l, l < 144 → s.counter + 4 ≠ 456 * l + 80) :
    ScreenOk (quantum s) := by
  obtain ⟨hfb, hwc⟩ := quantum_screen_of_no_draw s ht hlt hdraw
  have hdone : composesDone (quantum s).counter = composesDone s.counter := by
    rw [quantum_counter, if_neg (by omega), composesDone_add_four s.counter ht.counterAligned hdraw]
  constructor
  case windowBehind =>
    rw [hwc, hdone]
    exact h.windowBehind
  case rowsAheadBlank =>
    rw [hfb, hdone]
    exact h.rowsAheadBlank

theorem quantum_keeps_screen (s : State) (ht : TimingOk s) (h : ScreenOk s) : ScreenOk (quantum s) := by
  by_cases hwrap : 70224 ≤ s.counter + 4
  · obtain ⟨hfb, hwc⟩ := quantum_screen_of_wrap s ht hwrap
    exact ScreenOk.of_blank hfb hwc
  · by_cases hdraw : ∃ l, l < 144 ∧ s.counter + 4 = 456 * l + 80
    · obtain ⟨l, hl, hcounter⟩ := hdraw
      exact quantum_keeps_screen_of_draw s ht h l hl hcounter
    · exact quantum_keeps_screen_of_no_draw s ht h (by omega) fun l hl hcounter => hdraw ⟨l, hl, hcounter⟩

theorem reset_screen : ScreenOk State.reset := ScreenOk.of_blank rfl rfl

/-- Settles O60: together with the position, the invariant speaks of what the scheduler and the
compositor own, holds at reset and is kept by a quantum. -/
theorem everyStepKeepsTheScreen : Obligations.EveryStepKeepsTheScreen := by
  intro s t htiming hscreen hstep
  have hboth : TimingOk t ∧ ScreenOk t :=
    step_induction (fun u => TimingOk u ∧ ScreenOk u)
      (fun _ _ hkept h => ⟨h.1.of_schedulerKept hkept, h.2.of_schedulerKept hkept⟩)
      (fun _ _ hr h => ⟨h.1.of_residue hr, h.2.windowBehind, h.2.rowsAheadBlank⟩)
      (fun u h => ⟨quantum_keeps_timing u h.1, quantum_keeps_screen u h.1 h.2⟩)
      ⟨reset_timing, reset_screen⟩ hstep ⟨htiming, hscreen⟩
  exact hboth.2

end Sys2Proof.Machine
end

section
/-! PROOFS. A step takes the oldest transaction from the port (30_encoding.md R80). -/

namespace Sys2Proof.Machine

theorem step_of_port {s : State} {t : Transaction} {rest : List Transaction} (h : s.port = t :: rest) :
    step s = exec (decode t) { s with port := rest } := by
  rw [step, fetch_cons s t rest h]

theorem step_of_empty_port {s : State} (h : s.port = []) : step s = .next s := by
  rw [step, fetch_nil s h]
  rfl

/-- Settles O8: the oldest transaction is decoded, and the rest stay at the port. -/
theorem stepRunsDecodedTransaction : Obligations.StepRunsDecodedTransaction :=
  fun _ _ _ => step_of_port

/-- Settles O10: with nothing to fetch a step waits. -/
theorem stepWithNothingPresentedChangesNothing : Obligations.StepWithNothingPresentedChangesNothing :=
  fun _ => step_of_empty_port

/-- Settles O9: presenting puts the encoding in front, and taking it leaves the state presented to. -/
theorem presentedTransactionRunsNext : Obligations.PresentedTransactionRunsNext := by
  intro i s hwf
  rw [step_of_port (present_port (encode i) s), decodeOfEncodeIsIdentity i hwf]
  rfl

end Sys2Proof.Machine
end

section
/-! PROOFS. Single transactions: what each answers and what it leaves (40_register_bank.md R100 to
R126, 60_exceptions.md R245, 43_frame_pump.md R229). -/

namespace Sys2Proof.Machine

/-! ### Registers -/

/-- Command code 0 with a register's address reads that register, whatever the operand lines hold
(30_encoding.md R83). -/
theorem decode_readWord_address (r : BusReg) (d : Byte) (n : Nat) :
    decode ⟨commandWord 0 r.address, d, n⟩ = decodeReadRegister r := by
  simp [decode]

/-- A read of a register answers its byte and changes nothing. -/
theorem exec_decodeReadRegister (r : BusReg) (s : State) :
    exec (decodeReadRegister r) s = .next (respond (.rdata (s.reg r)) s) := by
  cases r <;> rfl

theorem registerRead_word {w : CommandWord} (r : BusReg) (hw : w = commandWord 0 r.address) (s : State)
    (d : Byte) (n : Nat) : decode ⟨w, d, n⟩ = decodeReadRegister r ∧
      exec (decodeReadRegister r) s = .next { s with responses := s.responses ++ [.rdata (s.reg r)] } := by
  rw [hw]
  exact ⟨decode_readWord_address r d n, exec_decodeReadRegister r s⟩

theorem registerWrite_word {w : CommandWord} (r : BusReg) (hr : r ≠ .ly)
    (hw : w = commandWord 1 r.address) (s : State) (d : Byte) (n : Nat) :
    decode ⟨w, d, n⟩ = decodeWriteRegister d r ∧
      exec (decodeWriteRegister d r) s = .next (respond .ack (s.busWrite d r)) := by
  rw [hw]
  exact ⟨decode_writeWord_address r d n, exec_decodeWriteRegister r hr d s⟩

/-- Settles O14: each word is command code 0 with the register's address. -/
theorem registerReadsReturnTheStoredByte : Obligations.RegisterReadsReturnTheStoredByte :=
  fun s d n => ⟨registerRead_word .lcdc (by decide) s d n, registerRead_word .stat (by decide) s d n,
    registerRead_word .scy (by decide) s d n, registerRead_word .scx (by decide) s d n,
    registerRead_word .ly (by decide) s d n, registerRead_word .lyc (by decide) s d n,
    registerRead_word .bgp (by decide) s d n, registerRead_word .obp0 (by decide) s d n,
    registerRead_word .obp1 (by decide) s d n, registerRead_word .wy (by decide) s d n,
    registerRead_word .wx (by decide) s d n⟩

/-- Settles O16: each word is command code 1 with the register's address. -/
theorem plainRegisterWritesStoreTheByte : Obligations.PlainRegisterWritesStoreTheByte :=
  fun s d n => ⟨registerWrite_word .lcdc (by decide) (by decide) s d n,
    registerWrite_word .scy (by decide) (by decide) s d n,
    registerWrite_word .scx (by decide) (by decide) s d n,
    registerWrite_word .lyc (by decide) (by decide) s d n,
    registerWrite_word .bgp (by decide) (by decide) s d n,
    registerWrite_word .obp0 (by decide) (by decide) s d n,
    registerWrite_word .obp1 (by decide) (by decide) s d n,
    registerWrite_word .wy (by decide) (by decide) s d n,
    registerWrite_word .wx (by decide) (by decide) s d n⟩

/-- A byte with bit 7 set, cut into the fields of STAT (10_state.md R25 to R28). -/
theorem stat_eq_fields (v : Byte) (htop : v.getLsbD 7 = true) :
    v = 1#1 ++ v.extractLsb' 3 4 ++ v.extractLsb' 2 1 ++ v.extractLsb' 0 2 := by
  apply BitVec.eq_of_getLsbD_eq
  intro i hi
  rw [BitVec.getLsbD_append, BitVec.getLsbD_append, BitVec.getLsbD_append]
  interval_cases i <;> simp [htop]

/-- Settles O15: the response is STAT's byte, which is its five fields. -/
theorem statReadsAsItsFiveFields : Obligations.StatReadsAsItsFiveFields := by
  intro s htop
  rw [← stat_eq_fields s.stat htop]
  exact exec_decodeReadRegister .stat s

/-! ### Memory regions -/

theorem Memory.read_write_same (m : Memory) (a : Nat) (v : Byte) (h : m.wf) :
    (m.write a v).read a = v := by
  rw [Memory.read_write m a a v h, if_pos rfl]

theorem Memory.read_write_of_ne (m : Memory) (a b : Nat) (v : Byte) (h : m.wf) (hb : b ≠ a) :
    (m.write a v).read b = m.read b := by
  rw [Memory.read_write m a b v h, if_neg hb]

/-- Settles O19: the new region is the written one, which reads and stays canonical by the laws of
memory. -/
theorem videoMemoryTransactions : Obligations.VideoMemoryTransactions :=
  fun s o d => ⟨rfl, fun hform => ⟨s.vram.write o.toNat d, rfl, Memory.read_write_same _ _ _ hform,
    fun a ha => Memory.read_write_of_ne _ _ a _ hform ha, Memory.write_wf _ _ _ hform⟩⟩

/-- Settles O20, as O19: the meaning does not look at the bound on the offset. -/
theorem objectMemoryTransactions : Obligations.ObjectMemoryTransactions :=
  fun s o d _ => ⟨rfl, fun hform => ⟨s.oam.write o.toNat d, rfl, Memory.read_write_same _ _ _ hform,
    fun a ha => Memory.read_write_of_ne _ _ a _ hform ha, Memory.write_wf _ _ _ hform⟩⟩

/-! ### Faults, POLL and RESET -/

/-- Settles O18: the three meanings are the one shared way to take an addressing fault. -/
theorem addressingFaultsAreResponses : Obligations.AddressingFaultsAreResponses := by
  intro s a d
  have htaken (addr : Addr) (dir : Dir) : raiseAddressing addr dir s =
      .next { s with responses := s.responses ++ [.fault (.addressing addr dir)] } := rfl
  exact ⟨htaken a .read, htaken a .write, htaken 0xFF44 .write, fun _ => rfl⟩

/-- The pair POLL answers as a number (30_encoding.md R81). -/
theorem irqBits_eq (s : State) :
    irqBits s = (if s.vblankPending then 2 else 0) + (if s.statPending then 1 else 0) := by
  unfold irqBits
  cases s.vblankPending <;> cases s.statPending <;> rfl

/-- Settles O50: POLL's word is decoded by its code. -/
theorem pollReadsAndClearsBothLatches : Obligations.PollReadsAndClearsBothLatches := by
  intro s a d n
  rw [← irqBits_eq]
  exact ⟨decode_of_opField_three (opField_commandWord 3 a), rfl⟩

/-- Settles O54: RESET's word is decoded by its code. -/
theorem resetCommandRestoresTheResetValues : Obligations.ResetCommandRestoresTheResetValues :=
  fun _ a _ _ => ⟨decode_of_opField_five (opField_commandWord 5 a), rfl⟩

end Sys2Proof.Machine
end

section
/-! PROOFS. Bus accesses, by what the address selects (40_register_bank.md R100 to R128). -/

namespace Sys2Proof.Machine

@[simp] theorem mapped_vramAddress (o : BitVec 13) : mapped (vramAddress o) = true :=
  (mapped_iff_target _).2 (by simp)

theorem mapped_oamAddress (o : Byte) (ho : o.toNat < Config.oamSize) : mapped (oamAddress o) = true :=
  (mapped_iff_target _).2 (by simp [busTarget_oamAddress o ho])

@[simp] theorem mapped_address (r : BusReg) : mapped r.address = true :=
  (mapped_iff_target _).2 (by simp)

/-- No two registers share an address. -/
theorem address_injective : Function.Injective BusReg.address := by
  intro r q h
  have e := registerAt_address r
  rw [h, registerAt_address] at e
  exact (Option.some.inj e).symm

/-- No byte of a memory region has a register's address. -/
theorem vramAddress_ne_address (o : BitVec 13) (r : BusReg) : vramAddress o ≠ r.address := by
  intro h
  have e := busTarget_vramAddress o
  rw [h, busTarget_address] at e
  cases e

theorem oamAddress_ne_address (o : Byte) (ho : o.toNat < Config.oamSize) (r : BusReg) :
    oamAddress o ≠ r.address := by
  intro h
  have e := busTarget_oamAddress o ho
  rw [h, busTarget_address] at e
  cases e

/-- What a bus access can do to the block besides its response. -/
inductive BusEffect (d : Byte) (s : State) : State → Prop where
  | unchanged : BusEffect d s s
  | vramStored (o : BitVec 13) : BusEffect d s { s with vram := s.vram.write o.toNat d }
  | oamStored (o : Byte) : BusEffect d s { s with oam := s.oam.write o.toNat d }
  | registerStored (r : BusReg) : BusEffect d s (s.busWrite d r)

theorem BusEffect.port {d : Byte} {s u : State} (h : BusEffect d s u) : u.port = s.port := by
  cases h with
  | registerStored r => cases r <;> rfl
  | _ => rfl

theorem BusEffect.responses {d : Byte} {s u : State} (h : BusEffect d s u) :
    u.responses = s.responses := by
  cases h with
  | registerStored r => cases r <;> rfl
  | _ => rfl

theorem BusEffect.frameOut {d : Byte} {s u : State} (h : BusEffect d s u) : u.frameOut = s.frameOut := by
  cases h with
  | registerStored r => cases r <;> rfl
  | _ => rfl

theorem BusEffect.schedulerKept {d : Byte} {s u : State} (h : BusEffect d s u) : SchedulerKept s u := by
  cases h with
  | registerStored r => exact busWrite_keeps_scheduler s d r
  | _ => exact ⟨rfl, rfl, rfl, rfl, rfl, rfl, rfl, rfl⟩

/-- No bus access touches a latch or events_ready. -/
theorem BusEffect.latches {d : Byte} {s u : State} (h : BusEffect d s u) :
    u.vblankPending = s.vblankPending ∧ u.statPending = s.statPending ∧
    u.eventsReady = s.eventsReady := by
  cases h with
  | registerStored r => cases r <;> exact ⟨rfl, rfl, rfl⟩
  | _ => exact ⟨rfl, rfl, rfl⟩

/-- The response is the fault `f` where `p` holds, and no fault elsewhere. -/
def FaultsExactly (p : Prop) (f : Fault) (r : Response) : Prop :=
  (p ∧ r = .fault f) ∨ (¬p ∧ ∀ g, r ≠ .fault g)

theorem FaultsExactly.iff {p : Prop} {f : Fault} {r : Response} (h : FaultsExactly p f r) :
    (∃ g, r = .fault g) ↔ p := by
  rcases h with ⟨hp, rfl⟩ | ⟨hp, hr⟩
  · exact ⟨fun _ => hp, fun _ => ⟨f, rfl⟩⟩
  · exact ⟨fun ⟨g, hg⟩ => absurd hg (hr g), fun h => absurd h hp⟩

theorem FaultsExactly.eq {p : Prop} {f : Fault} {r : Response} (h : FaultsExactly p f r) (g : Fault)
    (hg : r = .fault g) : g = f := by
  rcases h with ⟨-, rfl⟩ | ⟨-, hr⟩
  · exact (Response.fault.inj hg).symm
  · exact absurd hg (hr g)

/-- RD at every address: a byte, or the fault of an unmapped address. -/
theorem exec_decodeRead (a : Addr) (s : State) : ∃ r, exec (decodeRead a) s = .next (respond r s) ∧
    FaultsExactly (mapped a = false) (.addressing a .read) r := by
  have hbyte (b : Byte) (g : Fault) : Response.rdata b ≠ .fault g := nofun
  rcases address_cases a with ⟨o, rfl⟩ | ⟨o, ho, rfl⟩ | ⟨q, rfl⟩ | hunmapped
  · rw [decodeRead_vramAddress]
    exact ⟨_, rfl, .inr ⟨by simp, hbyte _⟩⟩
  · rw [decodeRead_oamAddress o ho]
    exact ⟨_, rfl, .inr ⟨by simp [mapped_oamAddress o ho], hbyte _⟩⟩
  · rw [decodeRead_address, exec_decodeReadRegister]
    exact ⟨_, rfl, .inr ⟨by simp, hbyte _⟩⟩
  · rw [decodeRead_of_unmapped a hunmapped]
    exact ⟨_, rfl, .inl ⟨hunmapped, rfl⟩⟩

/-- WR at every address: one store, or the fault of an unmapped address or of LY. -/
theorem exec_decodeWrite (a : Addr) (d : Byte) (s : State) :
    ∃ r u, exec (decodeWrite a d) s = .next (respond r u) ∧ BusEffect d s u ∧
      FaultsExactly (mapped a = false ∨ a = BusReg.ly.address) (.addressing a .write) r := by
  have hack (g : Fault) : Response.ack ≠ .fault g := nofun
  rcases address_cases a with ⟨o, rfl⟩ | ⟨o, ho, rfl⟩ | ⟨q, rfl⟩ | hunmapped
  · rw [decodeWrite_vramAddress]
    exact ⟨_, _, rfl, .vramStored o, .inr ⟨by simp [vramAddress_ne_address], hack⟩⟩
  · rw [decodeWrite_oamAddress o d ho]
    exact ⟨_, _, rfl, .oamStored o,
      .inr ⟨by simp [mapped_oamAddress o ho, oamAddress_ne_address o ho], hack⟩⟩
  · rw [decodeWrite_address]
    by_cases hq : q = .ly
    · subst hq
      exact ⟨_, _, rfl, .unchanged, .inl ⟨.inr rfl, rfl⟩⟩
    · rw [exec_decodeWriteRegister q hq]
      exact ⟨_, _, rfl, .registerStored q, .inr ⟨by simp [address_injective.eq_iff, hq], hack⟩⟩
  · rw [decodeWrite_of_unmapped a d hunmapped]
    exact ⟨_, _, rfl, .unchanged, .inl ⟨.inl hunmapped, rfl⟩⟩

/-- A pending RD or WR completes with one response and no other effect than a bus access has; the
response is the addressing fault exactly where R250 says so. -/
theorem step_of_bus {s : State} {t : Transaction} {rest : List Transaction} (hport : s.port = t :: rest)
    (hop : opField t.cw = 0 ∨ opField t.cw = 1) :
    ∃ r u, step s = .next (respond r u) ∧ BusEffect t.data { s with port := rest } u ∧
      FaultsExactly (mapped (addrField t.cw) = false ∨ (opField t.cw = 1 ∧ addrField t.cw = 0xFF44))
        (.addressing (addrField t.cw) (if opField t.cw = 0 then .read else .write)) r := by
  rw [step_of_port hport]
  rcases hop with hop | hop
  · obtain ⟨r, hexec, hfaults⟩ := exec_decodeRead (addrField t.cw) { s with port := rest }
    rw [decode_of_opField_zero hop, hop]
    exact ⟨r, _, hexec, .unchanged, by simpa using hfaults⟩
  · obtain ⟨r, u, hexec, heffect, hfaults⟩ :=
      exec_decodeWrite (addrField t.cw) t.data { s with port := rest }
    rw [decode_of_opField_one hop, hop]
    exact ⟨r, u, hexec, heffect, by simpa [BusReg.address] using hfaults⟩

/-- Settles O22: the response's fault is the one of `step_of_bus`. -/
theorem busAccessFaultsExactlyWhenUnmappedOrLyWrite :
    Obligations.BusAccessFaultsExactlyWhenUnmappedOrLyWrite := by
  intro s t rest hport hop
  obtain ⟨r, u, hstep, heffect, hfaults⟩ := step_of_bus hport hop
  refine ⟨respond r u, r, hstep, ?_, hfaults.iff, hfaults.eq⟩
  rw [respond_responses, heffect.responses]

/-- Settles O23: no effect of a bus access touches what the scheduler owns, a latch or a frame. -/
theorem busTransactionsLeaveTheSchedulerAlone : Obligations.BusTransactionsLeaveTheSchedulerAlone := by
  intro s t rest hport hop
  obtain ⟨r, u, hstep, heffect, -⟩ := step_of_bus hport hop
  obtain ⟨hcounter, hresidue, hblock, hly, hlow, htop, hwc, hfb⟩ := heffect.schedulerKept
  obtain ⟨hvblank, hstat, hevents⟩ := heffect.latches
  exact ⟨respond r u, hstep, heffect.port, hcounter, hresidue, hvblank, hstat, hblock, hevents, hwc, hly,
    hlow, htop, hfb, heffect.frameOut⟩

end Sys2Proof.Machine
end

section
/-! PROOFS. A byte written over the bus is read back (40_register_bank.md R127). -/

namespace Sys2Proof.Machine

/-- Two steps that take the two transactions of the port. -/
theorem run_two {s u v : State} {t₁ t₂ : Transaction} (hport : s.port = [t₁, t₂])
    (h₁ : exec (decode t₁) { s with port := [t₂] } = .next u) (hrest : u.port = [t₂])
    (h₂ : exec (decode t₂) { u with port := [] } = .next v) : run 2 s = .next v := by
  rw [run_succ_next 1 s u ((step_of_port hport).trans h₁),
    run_succ_next 0 u v ((step_of_port hrest).trans h₂), run_zero]

/-- A register other than LY reads as it was written, STAT as its mask says (R107). -/
theorem reg_busWrite (s : State) (d : Byte) (r : BusReg) (hr : r ≠ .ly) :
    (s.busWrite d r).reg r = if r = .stat then withEnables s.stat d else d := by
  cases r
  case ly => exact absurd rfl hr
  all_goals rfl

/-- The written byte of every mapped address but LY is read back (R127). -/
theorem exec_read_after_write (s : State) (a : Addr) (d : Byte) (hmem : MemoryOk s)
    (hmapped : mapped a = true) (hly : a ≠ BusReg.ly.address) :
    ∃ u, exec (decodeWrite a d) s = .next (respond .ack u) ∧ BusEffect d s u ∧
      ∀ v : State, v.vram = u.vram → v.oam = u.oam → v.reg = u.reg →
        exec (decodeRead a) v = .next (respond
          (.rdata (if a = BusReg.stat.address then withEnables s.stat d else d)) v) := by
  rcases address_cases a with ⟨o, rfl⟩ | ⟨o, ho, rfl⟩ | ⟨q, rfl⟩ | hunmapped
  · rw [decodeWrite_vramAddress, decodeRead_vramAddress]
    refine ⟨_, rfl, .vramStored o, fun v hvram _ _ => ?_⟩
    have hread : v.vram.read o.toNat = d := by
      rw [hvram]
      exact Memory.read_write_same s.vram o.toNat d hmem.vramForm
    rw [if_neg (vramAddress_ne_address o .stat), ← hread]
    rfl
  · rw [decodeWrite_oamAddress o d ho, decodeRead_oamAddress o ho]
    refine ⟨_, rfl, .oamStored o, fun v _ hoam _ => ?_⟩
    have hread : v.oam.read o.toNat = d := by
      rw [hoam]
      exact Memory.read_write_same s.oam o.toNat d hmem.oamForm
    rw [if_neg (oamAddress_ne_address o ho .stat), ← hread]
    rfl
  · have hq : q ≠ .ly := fun h => hly (congrArg _ h)
    rw [decodeWrite_address, decodeRead_address]
    refine ⟨_, exec_decodeWriteRegister q hq d s, .registerStored q, fun v _ _ hreg => ?_⟩
    rw [exec_decodeReadRegister, hreg, reg_busWrite s d q hq]
    simp only [address_injective.eq_iff]
  · exact absurd hmapped (by simp [hunmapped])

/-- Settles O21: the second step reads what the first one stored, from the state it left. -/
theorem busWriteThenReadReturnsTheByte : Obligations.BusWriteThenReadReturnsTheByte := by
  intro s a d hmem hmapped hly hport
  obtain ⟨u, hwrite, heffect, hread⟩ := exec_read_after_write { s with port := [encodeRead a] } a d
    ⟨hmem.vramForm, hmem.vramSize, hmem.oamForm, hmem.oamSize⟩ hmapped hly
  rw [← decode_encodeWrite] at hwrite
  have hread := hread { respond .ack u with port := [] } rfl rfl (by funext r; cases r <;> rfl)
  rw [← decode_encodeRead] at hread
  refine ⟨_, run_two hport hwrite heffect.port hread, ?_⟩
  show u.responses ++ [.ack] ++ [_] = _
  rw [heffect.responses, List.append_assoc]
  rfl

end Sys2Proof.Machine
end

section
/-! PROOFS. The latches: what one step and one quantum do to them (41_mode_scheduler.md R161, R166,
60_exceptions.md R241, R261). -/

namespace Sys2Proof.Machine

/-! ### The status latch in one step -/

/-- A new mode leaves the enables and bit 7 of STAT alone. -/
theorem withMode_getLsbD (v : Byte) (m : Mode) (b : Nat) (hb : 3 ≤ b ∧ b < 8) :
    (withMode v m).getLsbD b = v.getLsbD b :=
  getLsbD_of_top _ _ (withMode_fields v m).2 b hb

/-- The sources of a status request among the mode transitions, by position, with their enables. -/
def modeWanted (line offset : Nat) (stat : Byte) : Bool :=
  (decide (line < 144 ∧ offset = 0) && stat.getLsbD 5) ||
  (decide (line < 144 ∧ offset = 252) && stat.getLsbD 3) ||
  (decide (line = 144 ∧ offset = 0) && stat.getLsbD 4)

/-- The fourth source, the coincidence, with its enable. -/
def coincidenceWanted (s : State) : Bool :=
  decide (BitVec.ofNat 8 s.line = s.lyc ∧ s.offset = 0) && s.stat.getLsbD 6

theorem statusWanted_eq (s : State) :
    statusWanted s = (modeWanted s.line s.offset s.stat || coincidenceWanted s) := rfl

/-- A request beside a new mode: the enables are those before it. -/
theorem requestStat_setMode_latch (b : Nat) (hb : 3 ≤ b ∧ b ≤ 6) (m : Mode) (s u : State)
    (hu : u.stat = withMode s.stat m ∧ u.statPending = s.statPending ∧ u.blockStatIrqs = s.blockStatIrqs) :
    (requestStat b u).statPending = (s.statPending || (s.stat.getLsbD b && !s.blockStatIrqs)) ∧
    (requestStat b u).blockStatIrqs = (s.blockStatIrqs || s.stat.getLsbD b) := by
  obtain ⟨hstat, hpending, hblock⟩ := hu
  have h := requestStat_latch b hb u
  rwa [hstat, hpending, hblock, withMode_getLsbD s.stat m b (by omega)] at h

/-- The status latch and the suppression flag after the mode transitions. -/
theorem transition_latch (l k : Nat) (s : State) :
    (transition l k s).statPending =
      (s.statPending || (modeWanted l k s.stat && !s.blockStatIrqs)) ∧
    (transition l k s).blockStatIrqs = (s.blockStatIrqs || modeWanted l k s.stat) := by
  unfold transition
  simp only [Config.visibleLines, Config.mode3Offset, Config.mode0Offset]
  split_ifs with hvisible hsearch hdraw hhblank hvblank
  · have hwanted : modeWanted l k s.stat = s.stat.getLsbD 5 := by
      simp [modeWanted, hvisible, hsearch, show l ≠ 144 by omega]
    rw [hwanted]
    exact requestStat_setMode_latch 5 (by decide) .search s _ ⟨rfl, rfl, rfl⟩
  · have hwanted : modeWanted l k s.stat = false := by
      simp [modeWanted, hdraw]
    simp [hwanted, enterDraw]
  · have hwanted : modeWanted l k s.stat = s.stat.getLsbD 3 := by
      simp [modeWanted, hvisible, hhblank]
    rw [hwanted]
    exact requestStat_setMode_latch 3 (by decide) .hblank s _ ⟨rfl, rfl, rfl⟩
  · have hwanted : modeWanted l k s.stat = false := by
      simp [modeWanted, hsearch, hhblank]
    simp [hwanted]
  · have hwanted : modeWanted l k s.stat = s.stat.getLsbD 4 := by
      simp [modeWanted, hvblank]
    rw [hwanted]
    exact requestStat_setMode_latch 4 (by decide) .vblank s _ ⟨rfl, rfl, rfl⟩
  · have hwanted : modeWanted l k s.stat = false := by
      simp [modeWanted, hvisible, hvblank]
    simp [hwanted]

/-- The coincidence request's effect on the status latch and on the suppression flag. -/
theorem requestCoincidence_latch (k : Nat) (s : State) :
    (requestCoincidence k s).statPending = (s.statPending ||
      ((decide (statCoincidence s.stat = true ∧ k = 0) && s.stat.getLsbD 6) && !s.blockStatIrqs)) ∧
    (requestCoincidence k s).blockStatIrqs = (s.blockStatIrqs ||
      (decide (statCoincidence s.stat = true ∧ k = 0) && s.stat.getLsbD 6)) := by
  unfold requestCoincidence
  split
  case isTrue h => simpa [h] using requestStat_latch 6 (by decide) s
  case isFalse h => simp [h]

/-- Two requests one after the other do what one request for either source does. -/
theorem request_twice (pending block a b : Bool) :
    ((pending || (a && !block)) || (b && !(block || a))) = (pending || ((a || b) && !block)) ∧
    ((block || a) || b) = (block || (a || b)) := by
  revert pending block a b
  decide

/-- The last request of a step is the coincidence's, for the LY that the step has written. -/
theorem schedStep_latch (s u : State) (hu : u = transition s.line s.offset (enterLine s.line s)) :
    (schedStep s).statPending =
      (u.statPending || (coincidenceWanted s && !u.blockStatIrqs)) ∧
    (schedStep s).blockStatIrqs = (u.blockStatIrqs || coincidenceWanted s) := by
  have hstep : schedStep s = requestCoincidence s.offset (updateCoincidence u) := by rw [hu]; rfl
  have hstat : (updateCoincidence u).stat = (schedStep s).stat := by
    rw [hstep, requestCoincidence_stat]
  have hcoincidence : statCoincidence (schedStep s).stat = decide (BitVec.ofNat 8 s.line = s.lyc) := by
    rw [← schedStep_ly]
    exact (coincidenceIsRecomputedEveryStep s).1
  have henable : (schedStep s).stat.getLsbD 6 = s.stat.getLsbD 6 :=
    getLsbD_of_top _ _ (schedStep_stat_top s) 6 (by decide)
  have h := requestCoincidence_latch s.offset (updateCoincidence u)
  rw [← hstep, hstat, hcoincidence, henable] at h
  simp only [decide_eq_true_eq] at h
  exact h

/-- Settles O28: after the scanline change the mode transitions make one request and the coincidence
another, both with the enables of before the step. -/
theorem statusLatchIsSetOncePerStep : Obligations.StatusLatchIsSetOncePerStep := by
  intro s
  have hblocked : (enterLine s.line s).blockStatIrqs = stillBlocked s := enterLine_blockStatIrqs s.line s
  obtain ⟨hpending, hblock⟩ := transition_latch s.line s.offset (enterLine s.line s)
  rw [enterLine_stat, enterLine_statPending, hblocked] at hpending
  rw [enterLine_stat, hblocked] at hblock
  have h := schedStep_latch s _ rfl
  rw [hpending, hblock] at h
  obtain ⟨htwicePending, htwiceBlock⟩ := request_twice s.statPending (stillBlocked s)
    (modeWanted s.line s.offset s.stat) (coincidenceWanted s)
  rw [statusWanted_eq]
  exact ⟨h.1.trans htwicePending, h.2.trans htwiceBlock⟩

/-! ### The latches in a quantum -/

theorem advanceCounter_counter (s : State) : (advanceCounter s).counter = (quantum s).counter := by
  rw [quantum, schedStep_counter]

/-- Settles O29: counter 65664 is offset 0 of line 144. -/
theorem vblankLatchSetOnlyAtLine144 : Obligations.VblankLatchSetOnlyAtLine144 := by
  intro s
  have hposition : ((quantum s).counter / 456 = 144 ∧ (quantum s).counter % 456 = 0) ↔
      (quantum s).counter = 65664 := by omega
  have h := schedStep_vblankPending (advanceCounter s)
  rw [State.line, State.offset, advanceCounter_counter, advanceCounter_vblankPending] at h
  exact h.trans (congrArg (s.vblankPending || ·) (decide_eq_decide.2 hposition))

/-- The status latch and the suppression flag after a quantum. -/
theorem quantum_status (s : State) :
    (quantum s).statPending =
      (s.statPending || (statusWanted (advanceCounter s) && !stillBlocked (advanceCounter s))) ∧
    (quantum s).blockStatIrqs = (stillBlocked (advanceCounter s) || statusWanted (advanceCounter s)) := by
  have h := statusLatchIsSetOncePerStep (advanceCounter s)
  rwa [advanceCounter_statPending] at h

/-- A quantum inside a scanline whose status request has succeeded (60_exceptions.md R261). -/
theorem quantum_of_blocked (s : State) (hframe : s.counter < 70224) (hly : s.ly.toNat = s.counter / 456)
    (hline : s.counter % 456 + 4 < 456) (hblock : s.blockStatIrqs = true) :
    (quantum s).statPending = s.statPending ∧ (quantum s).blockStatIrqs = true := by
  have hstill : stillBlocked (advanceCounter s) = true := by
    rw [advanceCounter_of_lt s (by omega), stillBlocked, hblock, State.line, hly]
    simp
    omega
  have h := quantum_status s
  rw [hstill] at h
  simpa using h

/-- Settles O31, one quantum after the other: each stays on the scanline that LY holds. -/
theorem oneStatusInterruptPerScanline : Obligations.OneStatusInterruptPerScanline := by
  intro k
  induction k with
  | zero => exact fun s _ _ _ hblock => ⟨rfl, hblock⟩
  | succ k ih =>
    intro s hframe hly hline hblock
    obtain ⟨hpending, hblock'⟩ := quantum_of_blocked s hframe hly (by omega) hblock
    have hcounter := quantumAdvancesTheCounterModuloTheFrame s hframe
    obtain ⟨hlast, hflag⟩ := ih (quantum s) (quantum_counter_lt s hframe) (quantum_ly s hframe)
      (by omega) hblock'
    exact ⟨hlast.trans hpending, hflag⟩

/-- With every enable at 0 no quantum sets the status latch (60_exceptions.md R243). -/
theorem quantum_statPending_of_disabled (s : State)
    (hdisabled : ∀ b, 3 ≤ b ∧ b ≤ 6 → s.stat.getLsbD b = false) :
    (quantum s).statPending = s.statPending := by
  have hwanted : statusWanted (advanceCounter s) = false := by
    rw [statusWanted, advanceCounter_stat, hdisabled 3 (by decide), hdisabled 4 (by decide),
      hdisabled 5 (by decide), hdisabled 6 (by decide)]
    simp
  rw [(quantum_status s).1, hwanted]
  simp

theorem quanta_statPending_of_disabled (k : Nat) (s : State)
    (hdisabled : ∀ b, 3 ≤ b ∧ b ≤ 6 → s.stat.getLsbD b = false) :
    (quanta k s).statPending = s.statPending := by
  induction k generalizing s with
  | zero => rfl
  | succ k ih =>
    have hkept (b : Nat) (hb : 3 ≤ b ∧ b ≤ 6) : (quantum s).stat.getLsbD b = false :=
      (getLsbD_of_top _ _ (quantum_stat_top s) b (by omega)).trans (hdisabled b hb)
    rw [quanta_succ, ih (quantum s) hkept, quantum_statPending_of_disabled s hdisabled]

end Sys2Proof.Machine
end

section
/-! PROOFS. Runs of quanta: the counter, the frames emitted and the first frame after reset
(43_frame_pump.md R230, 41_mode_scheduler.md R164, R166). -/

namespace Sys2Proof.Machine

/-! ### The counter and the frames -/

/-- A run of quanta, by its last. -/
theorem quanta_succ_last (k : Nat) (s : State) : quanta (k + 1) s = quantum (quanta k s) :=
  quanta_add k 1 s

theorem quanta_counter (k : Nat) (s : State) (h : s.counter < 70224) :
    (quanta k s).counter = (s.counter + 4 * k) % 70224 := by
  induction k with
  | zero => exact (Nat.mod_eq_of_lt h).symm
  | succ k ih =>
    have hlt : (quanta k s).counter < 70224 := by omega
    rw [quanta_succ_last, quantumAdvancesTheCounterModuloTheFrame _ hlt]
    omega

/-- A quantum emits FB at the wrap and nothing else (43_frame_pump.md R223). -/
theorem quantum_frameOut (s : State) :
    (quantum s).frameOut = s.frameOut ++ if 70224 ≤ s.counter + 4 then [s.fb] else [] := by
  by_cases hwrap : 70224 ≤ s.counter + 4
  · rw [quantum_of_wrap s hwrap, schedStep_frameOut, if_pos hwrap]
    rfl
  · rw [quantum_of_lt s (by omega), schedStep_frameOut, if_neg hwrap, List.append_nil]

/-- As many frames are emitted as the counter wraps. -/
theorem quanta_frameOut_length (k : Nat) (s : State) (h : s.counter < 70224) :
    (quanta k s).frameOut.length = s.frameOut.length + (s.counter + 4 * k) / 70224 := by
  induction k with
  | zero => simp [Nat.div_eq_of_lt h]
  | succ k ih =>
    have hcounter := quanta_counter k s h
    rw [quanta_succ_last, quantum_frameOut, List.length_append, ih]
    split
    case isTrue hwrap => rw [List.length_singleton]; omega
    case isFalse hlt => rw [List.length_nil]; omega

/-- Settles O45: the quanta of the ADV move the counter and wrap it as often as frames are emitted. -/
theorem advanceCountsFrames : Obligations.AdvanceCountsFrames := by
  intro n s hcounter
  exact ⟨_, execAdv_eq n s, quanta_counter _ _ hcounter, quanta_frameOut_length _ _ hcounter⟩

/-! ### ADV and the block's own parts -/

/-- A run of quanta leaves bits 7:3 of STAT alone (10_state.md R27). -/
theorem quanta_stat_top (k : Nat) (s : State) :
    (quanta k s).stat.extractLsb' 3 5 = s.stat.extractLsb' 3 5 := by
  induction k generalizing s with
  | zero => rfl
  | succ k ih => rw [quanta_succ, ih, quantum_stat_top]

/-- Settles O41: a run of quanta writes none of these, and an ADV adds its acknowledgement. -/
theorem advanceLeavesBusStateAlone : Obligations.AdvanceLeavesBusStateAlone := by
  intro n s
  refine ⟨_, execAdv_eq n s, ?_⟩
  simp [advance, quanta_stat_top]

/-- An ADV after other parts of the state were set aside: its quanta run beside them. -/
theorem advance_setAside (n r : Nat) (p : List Transaction) (q : List Response) (s : State) :
    advance n (setAside r p q s) = setAside ((r + n) % 4) p q (quanta ((r + n) / 4) s) :=
  quanta_setAside _ _ p q s

/-- Settles O44: the quanta of two ADVs join, and their remainders add up to the sum's. -/
theorem advanceDependsOnTheTotalOnly : Obligations.AdvanceDependsOnTheTotalOnly := by
  intro a b s
  refine ⟨_, _, _, execAdv_eq a s, execAdv_eq b _, execAdv_eq (a + b) s, ?_⟩
  have hfirst : respond .ack (advance a s) = setAside ((s.residue + a) % 4) s.port
      (s.responses ++ [.ack]) (quanta ((s.residue + a) / 4) s) :=
    congrArg (respond .ack) (advance_setAside a s.residue s.port s.responses s)
  have hsum : advance (a + b) s = setAside ((s.residue + (a + b)) % 4) s.port s.responses
      (quanta ((s.residue + (a + b)) / 4) s) := advance_setAside (a + b) s.residue s.port s.responses s
  have hresidue : ((s.residue + a) % 4 + b) % 4 = (s.residue + (a + b)) % 4 := by omega
  have hquanta : (s.residue + a) / 4 + ((s.residue + a) % 4 + b) / 4 = (s.residue + (a + b)) / 4 := by
    omega
  rw [hfirst, advance_setAside, hresidue, ← quanta_add, hquanta, hsum]
  rfl

/-! ### The frames while the display is off -/

theorem schedStep_fb_of_display_off (s : State) (h : displayEnable s.lcdc = false) :
    (schedStep s).fb = s.fb := by
  rw [schedStep_fb, (transition_screen _ _ _).1]
  split
  · rw [compose_of_display_off _ _ (by simpa using h), setMode_fb, enterLine_fb]
  · rw [enterLine_fb]

theorem quantum_blank_of_display_off (s : State) (h : displayEnable s.lcdc = false)
    (hfb : s.fb = Frame.blank) : (quantum s).fb = Frame.blank := by
  rw [quantum, schedStep_fb_of_display_off _ (by simpa using h), advanceCounter]
  split
  · rfl
  · exact hfb

/-- In `u` the display is off, FB is blank, and only blank frames were emitted since `s`. -/
structure BlankSince (s u : State) : Prop where
  displayOff : displayEnable u.lcdc = false
  blankFb : u.fb = Frame.blank
  blankFrames : ∃ k, u.frameOut = s.frameOut ++ List.replicate k Frame.blank

/-- A quantum emits the blank FB at most, and leaves FB blank. -/
theorem quantum_keeps_blankSince (s u : State) (h : BlankSince s u) : BlankSince s (quantum u) where
  displayOff := by simpa using h.displayOff
  blankFb := quantum_blank_of_display_off u h.displayOff h.blankFb
  blankFrames := by
    obtain ⟨k, hframes⟩ := h.blankFrames
    rw [quantum_frameOut, hframes, h.blankFb]
    split
    · exact ⟨k + 1, by rw [List.append_assoc, List.replicate_succ']⟩
    · exact ⟨k, List.append_nil _⟩

/-- Settles O48, one quantum after the other. -/
theorem framesAreBlankWhileTheDisplayIsOff : Obligations.FramesAreBlankWhileTheDisplayIsOff := by
  intro n s hoff hfb
  have hstart : BlankSince s { s with residue := advResidue s.residue n } :=
    ⟨hoff, hfb, 0, (List.append_nil _).symm⟩
  obtain ⟨-, hblank, k, hframes⟩ :=
    quanta_induction (quantum_keeps_blankSince s) (advQuanta s.residue n) _ hstart
  exact ⟨_, k, execAdv_eq n s, hblank, hframes⟩

/-! ### The first frame -/

/-- The V-blank latch inside the first frame of a block whose counter starts at 0. -/
theorem quanta_vblankPending (k : Nat) (s : State) (hstart : s.counter = 0)
    (hlatch : s.vblankPending = false) (hk : 4 * k < 70224) :
    (quanta k s).vblankPending = decide (65664 ≤ 4 * k) := by
  induction k with
  | zero => exact hlatch
  | succ k ih =>
    have hcounter := quanta_counter (k + 1) s (by omega)
    rw [quanta_succ_last] at hcounter ⊢
    rw [vblankLatchSetOnlyAtLine144, ih (by omega), ← Bool.decide_or, hcounter, decide_eq_decide]
    omega

/-- Every enable is 0 at reset (10_state.md R47). -/
theorem reset_disabled (b : Nat) (hb : 3 ≤ b ∧ b ≤ 6) : State.reset.stat.getLsbD b = false := by
  obtain ⟨hlow, hhigh⟩ := hb
  interval_cases b <;> rfl

/-- Settles O56: 65664 is a whole number of quanta, and the enables are 0 from reset on. -/
theorem firstVblankAfterReset : Obligations.FirstVblankAfterReset := by
  intro n hn
  refine ⟨_, execAdv_eq n State.reset, ?_, ?_⟩
  · have hvblank := quanta_vblankPending ((0 + n) / 4) { State.reset with residue := (0 + n) % 4 }
      rfl rfl (by omega)
    refine hvblank.trans (decide_eq_decide.2 ?_)
    omega
  · exact quanta_statPending_of_disabled _ _ reset_disabled

/-! ### The first line -/

/-- STAT after a quantum that ends before the mode-0 entry of line 0, with LYC at 0: only the mode-3
entry is met on the way (41_mode_scheduler.md R155, R159). -/
theorem quantum_stat_of_early (s : State) (hlyc : s.lyc = 0) (hearly : s.counter + 4 < 252) :
    (quantum s).stat =
      withCoincidence (if s.counter + 4 = 80 then withMode s.stat .draw else s.stat) true := by
  have hline : (s.counter + 4) / 456 = 0 := by omega
  have hoffset : (s.counter + 4) % 456 = s.counter + 4 := by omega
  rw [quantum_of_lt s (by omega), schedStep_stat, transition_stat]
  simp only [State.line, State.offset, Config.lineCycles, hline, hoffset, hlyc, enterLine_stat]
  rw [if_pos (by decide), if_neg (by omega), if_neg (show s.counter + 4 ≠ 252 by omega)]
  rfl

/-- Up to offset 76 of the first line MODE stays 0 and COINCIDENCE is 1 (R164, R284). -/
theorem quanta_stat_of_first_line (k : Nat) (hk : k + 1 < 20) :
    (quanta (k + 1) State.reset).stat = 0x84 := by
  have hcounter := quanta_counter k State.reset (by decide)
  have hstart : State.reset.counter = 0 := rfl
  rw [quanta_succ_last, quantum_stat_of_early _ (quanta_lyc _ _) (by omega), if_neg (by omega)]
  cases k with
  | zero => rfl
  | succ k =>
    rw [quanta_stat_of_first_line k (by omega)]
    rfl

/-- Settles O55: no enable is set, no transition is met before the twentieth quantum, and LY is LYC. -/
theorem firstLineAfterReset : Obligations.FirstLineAfterReset := by
  have hstart : State.reset.counter = 0 := rfl
  have hcounter (k : Nat) := quanta_counter k State.reset (by decide)
  refine ⟨fun k hk1 hk => ⟨?_, ?_, quanta_statPending_of_disabled k _ reset_disabled⟩, ?_⟩
  · rw [hcounter, hstart]
    omega
  · obtain ⟨j, rfl⟩ := Nat.exists_eq_add_of_le' hk1
    exact quanta_stat_of_first_line j hk
  · have hlast : (quanta 19 State.reset).counter = 76 := hcounter 19
    rw [quanta_succ_last 19, quantum_stat_of_early _ (quanta_lyc _ _) (by omega), if_pos (by omega),
      quanta_stat_of_first_line 18 (by decide)]
    rfl

end Sys2Proof.Machine
end

section
/-! PROOFS. Every step: no fault, no end but a reserved command, outputs that only grow, latches that
only their commands clear, and memory that stays in form. -/

namespace Sys2Proof.Machine

/-! ### Faults and stops -/

/-- Settles O12: ADV's defensive check answers nothing, RESERVED is refused, and the other meanings
answer a next state. -/
theorem noTransactionStopsWithAFault : Obligations.NoTransactionStopsWithAFault := by
  intro i s f h
  cases i with
  | adv n => cases (execAdv_eq n s).symm.trans h
  | reserved op => cases (exec_reserved op s).symm.trans h
  | _ => cases h

/-- A transaction whose command code is not reserved completes, and what the host presents after it
stays (30_encoding.md R86). -/
theorem exec_decode_completes (t : Transaction) (s : State) (h6 : opField t.cw ≠ 6)
    (h7 : opField t.cw ≠ 7) : ∃ u, exec (decode t) s = .next u ∧ u.port = s.port := by
  rcases opField_cases t.cw with h | h | h | h | h | h | h | h
  · rw [decode_of_opField_zero h]
    obtain ⟨r, hexec, -⟩ := exec_decodeRead (addrField t.cw) s
    exact ⟨_, hexec, rfl⟩
  · rw [decode_of_opField_one h]
    obtain ⟨r, u, hexec, heffect, -⟩ := exec_decodeWrite (addrField t.cw) t.data s
    exact ⟨_, hexec, heffect.port⟩
  · rw [decode_of_opField_two h]
    exact ⟨_, execAdv_eq t.n s, quanta_port _ _⟩
  · rw [decode_of_opField_three h]
    exact ⟨_, rfl, rfl⟩
  · rw [decode_of_opField_four h]
    exact ⟨_, rfl, rfl⟩
  · rw [decode_of_opField_five h]
    exact ⟨_, rfl, rfl⟩
  · exact absurd h h6
  · exact absurd h h7

/-- A step of a stream without reserved commands leaves such a stream. -/
theorem step_of_noReserved (s : State) (h : NoReserved s) : ∃ t, step s = .next t ∧ NoReserved t := by
  cases hport : s.port with
  | nil => exact ⟨s, step_of_empty_port hport, h⟩
  | cons t rest =>
    rw [NoReserved, hport] at h
    obtain ⟨⟨h6, h7⟩, hrest⟩ := List.forall_mem_cons.1 h
    obtain ⟨u, hexec, hu⟩ := exec_decode_completes t { s with port := rest } h6 h7
    refine ⟨u, (step_of_port hport).trans hexec, ?_⟩
    rw [NoReserved, hu]
    exact hrest

/-- Settles O13, one step after the other. -/
theorem streamsWithoutReservedCommandsNeverStop :
    Obligations.StreamsWithoutReservedCommandsNeverStop := by
  intro k
  induction k with
  | zero => exact fun s _ => ⟨s, rfl⟩
  | succ k ih =>
    intro s hs
    obtain ⟨t, hstep, ht⟩ := step_of_noReserved s hs
    rw [run_succ_next k s t hstep]
    exact ih t ht

/-! ### Outputs -/

/-- A run of quanta only appends frames (43_frame_pump.md R224). -/
theorem quanta_extend_frameOut (k : Nat) (s : State) : s.frameOut <+: (quanta k s).frameOut := by
  induction k generalizing s with
  | zero => exact ⟨[], List.append_nil _⟩
  | succ k ih =>
    have hquantum : s.frameOut <+: (quantum s).frameOut := ⟨_, (quantum_frameOut s).symm⟩
    exact hquantum.trans (ih (quantum s))

theorem advance_extends_frameOut (n : Nat) (s : State) : s.frameOut <+: (advance n s).frameOut :=
  quanta_extend_frameOut _ { s with residue := advResidue s.residue n }

theorem busWrite_outputs (s : State) (d : Byte) (r : BusReg) :
    (s.busWrite d r).frameOut = s.frameOut ∧ (s.busWrite d r).responses = s.responses :=
  ⟨(BusEffect.registerStored r).frameOut, (BusEffect.registerStored r).responses⟩

theorem exec_extends_outputs {i : Instr} {s t : State} (h : exec i s = .next t) :
    s.frameOut <+: t.frameOut ∧ s.responses <+: t.responses := by
  have hresponse (r : Response) : s.responses <+: s.responses ++ [r] := ⟨[r], rfl⟩
  have hframes : s.frameOut <+: s.frameOut := ⟨[], List.append_nil _⟩
  rcases exec_next_cases i s t h with ⟨r, rfl⟩ | ⟨o, d, -, rfl⟩ | ⟨o, d, -, rfl⟩ | ⟨r, d, -, -, rfl⟩ |
    ⟨n, -, rfl⟩ | ⟨-, rfl⟩ | ⟨-, rfl⟩ | ⟨-, rfl⟩
  · exact ⟨hframes, hresponse _⟩
  · exact ⟨hframes, hresponse _⟩
  · exact ⟨hframes, hresponse _⟩
  · obtain ⟨hframeOut, hresponses⟩ := busWrite_outputs s d r
    rw [respond_frameOut, respond_responses, hframeOut, hresponses]
    exact ⟨hframes, hresponse _⟩
  · rw [respond_responses, advance_responses]
    exact ⟨advance_extends_frameOut n s, hresponse _⟩
  · exact ⟨hframes, hresponse _⟩
  · exact ⟨hframes, hresponse _⟩
  · exact ⟨hframes, hresponse _⟩

/-- Settles O47: a step that waits changes nothing, and a transaction only appends. -/
theorem emittedFramesAreNeverChanged : Obligations.EmittedFramesAreNeverChanged := by
  intro s t hstep
  rcases step_cases s _ hstep with ⟨-, heq⟩ | ⟨tr, rest, -, heq⟩
  · cases heq
    exact ⟨⟨[], (List.append_nil _).symm⟩, [], (List.append_nil _).symm⟩
  · obtain ⟨⟨fs, hfs⟩, rs, hrs⟩ := exec_extends_outputs heq.symm
    exact ⟨⟨fs, hfs.symm⟩, rs, hrs.symm⟩

/-! ### Latches -/

/-- No quantum clears a latch or events_ready (10_state.md R36, R37, R41). -/
theorem quantum_keeps_latches (s : State) :
    (s.vblankPending = true → (quantum s).vblankPending = true) ∧
    (s.statPending = true → (quantum s).statPending = true) ∧
    (s.eventsReady = true → (quantum s).eventsReady = true) := by
  refine ⟨fun h => ?_, fun h => ?_, fun h => ?_⟩
  · rw [vblankLatchSetOnlyAtLine144, h, Bool.true_or]
  · rw [(quantum_status s).1, h, Bool.true_or]
  · rw [quantum, schedStep_eventsReady, advanceCounter]
    split
    · rfl
    · exact h

theorem quanta_keep_latches (k : Nat) (s : State) :
    (s.vblankPending = true → (quanta k s).vblankPending = true) ∧
    (s.statPending = true → (quanta k s).statPending = true) ∧
    (s.eventsReady = true → (quanta k s).eventsReady = true) := by
  induction k generalizing s with
  | zero => exact ⟨id, id, id⟩
  | succ k ih =>
    obtain ⟨hvblank, hstat, hevents⟩ := quantum_keeps_latches s
    obtain ⟨hvblank', hstat', hevents'⟩ := ih (quantum s)
    exact ⟨hvblank' ∘ hvblank, hstat' ∘ hstat, hevents' ∘ hevents⟩

/-- Settles O51, by what a transaction can answer. -/
theorem latchesAreClearedOnlyByTheirCommands : Obligations.LatchesAreClearedOnlyByTheirCommands := by
  intro i s t h hreset
  rcases exec_next_cases i s t h with ⟨r, rfl⟩ | ⟨o, d, -, rfl⟩ | ⟨o, d, -, rfl⟩ | ⟨r, d, -, -, rfl⟩ |
    ⟨n, -, rfl⟩ | ⟨rfl, rfl⟩ | ⟨rfl, rfl⟩ | ⟨rfl, -⟩
  · exact ⟨fun _ => ⟨id, id⟩, fun _ => id⟩
  · exact ⟨fun _ => ⟨id, id⟩, fun _ => id⟩
  · exact ⟨fun _ => ⟨id, id⟩, fun _ => id⟩
  · have heffect : BusEffect d s (s.busWrite d r) := .registerStored r
    obtain ⟨hvblank, hstat, hevents⟩ := heffect.latches
    exact ⟨fun _ => ⟨hvblank.trans, hstat.trans⟩, fun _ => hevents.trans⟩
  · obtain ⟨hvblank, hstat, hevents⟩ := quanta_keep_latches (advQuanta s.residue n)
      { s with residue := advResidue s.residue n }
    exact ⟨fun _ => ⟨hvblank, hstat⟩, fun _ => hevents⟩
  · exact ⟨fun hpoll => absurd rfl hpoll, fun _ => id⟩
  · exact ⟨fun _ => ⟨id, id⟩, fun htakeev => absurd rfl htakeev⟩
  · exact absurd rfl hreset

/-! ### Memory -/

theorem busWrite_memory (s : State) (d : Byte) (r : BusReg) :
    (s.busWrite d r).vram = s.vram ∧ (s.busWrite d r).oam = s.oam := by
  cases r <;> exact ⟨rfl, rfl⟩

theorem MemoryOk.of_eq {s t : State} (h : MemoryOk s) (hvram : t.vram = s.vram) (hoam : t.oam = s.oam) :
    MemoryOk t where
  vramForm := hvram ▸ h.vramForm
  vramSize := hvram ▸ h.vramSize
  oamForm := hoam ▸ h.oamForm
  oamSize := hoam ▸ h.oamSize

theorem reset_memory : MemoryOk State.reset :=
  ⟨Memory.nil_wf, Memory.nil_within _, Memory.nil_wf, Memory.nil_within _⟩

/-- Settles O57: at reset both regions are empty, and the screen is blank with WC at 0. -/
theorem resetMeetsTheInvariants : Obligations.ResetMeetsTheInvariants :=
  ⟨reset_timing, reset_memory, reset_screen⟩

/-- A well-formed transaction keeps both regions canonical and in size: its offset is inside. -/
theorem exec_keeps_memory {i : Instr} {s t : State} (hwf : i.wf = true) (h : exec i s = .next t)
    (hs : MemoryOk s) : MemoryOk t := by
  rcases exec_next_cases i s t h with ⟨r, rfl⟩ | ⟨o, d, -, rfl⟩ | ⟨o, d, rfl, rfl⟩ | ⟨r, d, -, -, rfl⟩ |
    ⟨n, -, rfl⟩ | ⟨-, rfl⟩ | ⟨-, rfl⟩ | ⟨-, rfl⟩
  · exact hs.of_eq rfl rfl
  · exact ⟨Memory.write_wf _ _ _ hs.vramForm, Memory.write_within _ _ _ _ o.isLt hs.vramSize,
      hs.oamForm, hs.oamSize⟩
  · exact ⟨hs.vramForm, hs.vramSize, Memory.write_wf _ _ _ hs.oamForm,
      Memory.write_within _ _ _ _ (of_decide_eq_true hwf) hs.oamSize⟩
  · obtain ⟨hvram, hoam⟩ := busWrite_memory s d r
    exact hs.of_eq hvram hoam
  · exact hs.of_eq (quanta_vram _ _) (quanta_oam _ _)
  · exact hs.of_eq rfl rfl
  · exact hs.of_eq rfl rfl
  · exact reset_memory.of_eq rfl rfl

/-- Settles O59: the decoder gives well-formed transactions. -/
theorem everyStepKeepsTheMemoryForm : Obligations.EveryStepKeepsTheMemoryForm := by
  intro s t hs hstep
  rcases step_cases s _ hstep with ⟨-, heq⟩ | ⟨tr, rest, -, heq⟩
  · cases heq
    exact hs
  · exact exec_keeps_memory (decodedTransactionsAreWellFormed tr) heq.symm (hs.of_eq rfl rfl)

end Sys2Proof.Machine
end

section
/-! PROOFS. Tile fetches and the shades of a line (42_compositor.md R191, R200 to R204). -/

namespace Sys2Proof.Machine

/-! ### Fetches -/

/-- A tile number read as signed (42_compositor.md R191). -/
theorem tileBase_eq (lcdc idx : Byte) : tileBase lcdc idx =
    if lcdc.getLsbD 4 = false ∧ idx.toNat < 0x80 then 0x1000 + 16 * idx.toNat else 16 * idx.toNat := by
  have hidx := idx.isLt
  unfold tileBase unsignedTiles
  rw [BitVec.toInt_eq_toNat_cond]
  simp only [Config.tileBytes]
  cases hmode : lcdc.getLsbD 4
  · simp only [Bool.false_eq_true, if_false, true_and]
    split_ifs <;> omega
  · rw [if_pos rfl, if_neg (by simp)]

theorem mapBase_eq (select : Bool) : mapBase select = if select then 0x1C00 else 0x1800 := rfl

/-- Settles O33: 16 bytes a tile and 32 map entries a row of tiles, from the bases of R191 and R183. -/
theorem tileFetchesStayInsideVideoMemory : Obligations.TileFetchesStayInsideVideoMemory := by
  constructor
  case left =>
    intro lcdc idx r hr
    have hidx := idx.isLt
    refine ⟨tileBase_eq lcdc idx, ?_⟩
    rw [tileBase_eq]
    split <;> omega
  case right =>
    intro select y slot hy hslot
    simp only [mapEntry, mapBase_eq, Config.mapW, Config.tileH]
    cases select <;> simp <;> omega

/-! ### One layer of a line -/

/-- A drawn layer that places one of its columns `k < 256` at screen column `x` shows that column there. -/
theorem drawRow_layer_of_place (s : State) (place : Nat → Option Nat) (base y x k : Nat) (row : Row)
    (hx : x < 160) (hk : k < 256) (hplace : ∀ j, j < 256 → (place j = some x ↔ j = k)) :
    (drawRow s.bgp (layerPlacements s place base y) row).getD x 0 = layerShade s base y k := by
  apply drawRow_of_mem _ _ _ _ _ hx
  · exact ⟨⟨x, _⟩, (mem_layerPlacements _ _ _ _ _).2 ⟨k, hk, (hplace k hk).2 rfl, rfl⟩, rfl⟩
  · intro p hp hcolumn
    obtain ⟨j, hj, hpj, hindex⟩ := (mem_layerPlacements _ _ _ _ _).1 hp
    rw [hcolumn] at hpj
    obtain rfl := (hplace j hj).1 hpj
    exact hindex

/-- A drawn layer leaves a screen column at which it places nothing. -/
theorem drawRow_layer_of_no_place (s : State) (place : Nat → Option Nat) (base y x : Nat) (row : Row)
    (hplace : ∀ j, j < 256 → place j ≠ some x) :
    (drawRow s.bgp (layerPlacements s place base y) row).getD x 0 = row.getD x 0 := by
  apply drawRow_of_not_mem
  intro p hp hcolumn
  obtain ⟨j, hj, hpj, -⟩ := (mem_layerPlacements _ _ _ _ _).1 hp
  exact hplace j hj (hcolumn ▸ hpj)

/-- The background layer at a screen column (42_compositor.md R201, R204). -/
theorem drawRow_background (s : State) (ly x : Nat) (row : Row) (hx : x < 160) :
    (drawRow s.bgp (backgroundPlacements s ly) row).getD x 0 =
      if backgroundEnable s.lcdc = true then
        layerShade s (mapBase (backgroundMapSelect s.lcdc)) (backgroundRow s ly) ((x + s.scx.toNat) % 256)
      else row.getD x 0 := by
  unfold backgroundPlacements
  split
  case isTrue =>
    refine drawRow_layer_of_place s _ _ _ x _ row hx (Nat.mod_lt _ (by decide)) fun j hj => ?_
    rw [backgroundColumn_eq_some s.scx j x hj]
    exact and_iff_right hx
  case isFalse => rfl

/-- The window layer at a screen column (42_compositor.md R202, R204). -/
theorem drawRow_window (s : State) (ly x : Nat) (row : Row) (hx : x < 160) :
    (drawRow s.bgp (windowPlacements s ly) row).getD x 0 =
      if windowEnable s.lcdc = true ∧ s.wy.toNat ≤ ly ∧ s.wx.toNat ≤ x + 7 then
        layerShade s (mapBase (windowMapSelect s.lcdc)) s.wc.toNat (x + 7 - s.wx.toNat)
      else row.getD x 0 := by
  unfold windowPlacements
  by_cases hshown : windowEnable s.lcdc = true ∧ s.wy.toNat ≤ ly
  · rw [if_pos hshown]
    by_cases hleft : s.wx.toNat ≤ x + 7
    · rw [if_pos ⟨hshown.1, hshown.2, hleft⟩]
      refine drawRow_layer_of_place s _ _ _ x _ row hx (by omega) fun j hj => ?_
      rw [windowColumn_eq_some]
      omega
    · rw [if_neg fun h => hleft h.2.2]
      refine drawRow_layer_of_no_place s _ _ _ x row fun j hj hplace => ?_
      have := (windowColumn_eq_some _ _ _).1 hplace
      omega
  · rw [if_neg hshown, if_neg fun h => hshown ⟨h.1, h.2.1⟩]
    rfl

/-- Settles O35: the window is drawn over the background, which is drawn over the row. -/
theorem lineShadesColumnByColumn : Obligations.LineShadesColumnByColumn := by
  intro s ly x hly hx
  cases hdisplay : displayEnable s.lcdc
  · have hgate : ¬ s.lcdc.getLsbD 7 = true := Bool.eq_false_iff.1 hdisplay
    rw [compose_of_display_off ly s hdisplay, if_neg hgate]
  · have hgate : s.lcdc.getLsbD 7 = true := hdisplay
    rw [compose_of_display ly s hdisplay, Frame.pixel_setIfInBounds, if_pos ⟨rfl, hly⟩, linePlacements,
      if_pos hdisplay, drawRow_append, drawRow_window s ly x _ hx, drawRow_background s ly x _ hx,
      if_pos hgate]
    rfl

end Sys2Proof.Machine
end

section
/-! PROOFS. ADV carries OAM and the object palettes through, as COMPOSE does (00_scope.md R4,
42_compositor.md R198). -/

namespace Sys2Proof.Machine

/-- A state with the object memory and the object palettes replaced. -/
def setObjects (m : Memory) (a b : Byte) (s : State) : State :=
  { s with oam := m, obp0 := a, obp1 := b }

section
variable (m : Memory) (a b : Byte)

theorem requestStat_setObjects (i : Nat) (s : State) :
    requestStat i (setObjects m a b s) = setObjects m a b (requestStat i s) := by
  rw [requestStat, requestStat, apply_ite (setObjects m a b)]
  rfl

theorem lineChange_setObjects (l : Nat) (s : State) :
    lineChange l (setObjects m a b s) = setObjects m a b (lineChange l s) := by
  rw [lineChange, lineChange, apply_ite (setObjects m a b)]
  rfl

theorem enterLine_setObjects (l : Nat) (s : State) :
    enterLine l (setObjects m a b s) = setObjects m a b (enterLine l s) := by
  rw [enterLine, lineChange_setObjects]
  rfl

theorem transition_setObjects (l k : Nat) (s : State) :
    transition l k (setObjects m a b s) = setObjects m a b (transition l k s) := by
  unfold transition
  split_ifs
  · exact requestStat_setObjects m a b 5 (setMode .search s)
  · exact compose_object_state s.ly.toNat m a b (setMode .draw s)
  · exact requestStat_setObjects m a b 3 (setMode .hblank s)
  · rfl
  · exact requestStat_setObjects m a b 4 { setMode .vblank s with vblankPending := true }
  · rfl

theorem requestCoincidence_setObjects (k : Nat) (s : State) :
    requestCoincidence k (setObjects m a b s) = setObjects m a b (requestCoincidence k s) := by
  unfold requestCoincidence
  rw [apply_ite (setObjects m a b), requestStat_setObjects]
  rfl

theorem schedStep_setObjects (s : State) :
    schedStep (setObjects m a b s) = setObjects m a b (schedStep s) := by
  have hcoincidence (u : State) :
      updateCoincidence (setObjects m a b u) = setObjects m a b (updateCoincidence u) := rfl
  have hline : (setObjects m a b s).line = s.line := rfl
  have hoffset : (setObjects m a b s).offset = s.offset := rfl
  unfold schedStep
  rw [hline, hoffset, enterLine_setObjects, transition_setObjects, hcoincidence,
    requestCoincidence_setObjects]

theorem advanceCounter_setObjects (s : State) :
    advanceCounter (setObjects m a b s) = setObjects m a b (advanceCounter s) := by
  rw [advanceCounter, advanceCounter, apply_ite (setObjects m a b)]
  rfl

theorem quanta_setObjects (k : Nat) (s : State) :
    quanta k (setObjects m a b s) = setObjects m a b (quanta k s) := by
  induction k generalizing s with
  | zero => rfl
  | succ k ih =>
    rw [quanta_succ, quanta_succ, quantum, advanceCounter_setObjects, schedStep_setObjects, ih]
    rfl

end

/-- Settles O39: the quanta of the ADV carry the replaced contents through. -/
theorem advanceIgnoresObjectState : Obligations.AdvanceIgnoresObjectState := by
  intro n s m a b
  refine ⟨_, execAdv_eq n s, (execAdv_eq n _).trans ?_⟩
  have hquanta := quanta_setObjects m a b (advQuanta s.residue n)
    { s with residue := advResidue s.residue n }
  exact congrArg (fun u => Host.Outcome.next (respond .ack u)) hquanta

end Sys2Proof.Machine
end

section
/-! PROOFS. The opcode table selects what the decoder gives (30_encoding.md R83, R88), and the
assembler's commands have their command words (R91). -/

namespace Sys2Proof

/-! ### Rows inside rows -/

/-- The row `r'` fixes every bit that `r` fixes, to the same value. -/
def TableRow.encloses (r r' : TableRow) : Bool :=
  decide (r'.lo ≤ r.lo) && decide (r'.value / 2 ^ (r.lo - r'.lo) = r.value)

/-- Two rows that match one command word are one inside the other. -/
theorem encloses_of_matches {cw : CommandWord} {r r' : TableRow} (h : r.matches cw = true)
    (h' : r'.matches cw = true) (hlo : r'.lo ≤ r.lo) : r.encloses r' = true := by
  have hvalue : cw.toNat / 2 ^ r.lo = r.value := of_decide_eq_true h
  have hvalue' : cw.toNat / 2 ^ r'.lo = r'.value := of_decide_eq_true h'
  have hnested : r'.value / 2 ^ (r.lo - r'.lo) = r.value := by
    rw [← hvalue, ← hvalue', Nat.div_div_eq_div_mul, ← Nat.pow_add, Nat.add_sub_cancel' hlo]
  rw [TableRow.encloses, decide_eq_true hlo, decide_eq_true hnested]
  rfl

/-- No row of the table is inside a row of a memory region or of a register. -/
theorem busRow_encloses_itself_only : ∀ r ∈ tableRegions ++ tableRegisters, ∀ r' ∈ opcodeTable,
    r.encloses r' = true → r' = r := by decide

/-- The rows that fix the command code only are not inside each other. -/
theorem portRow_encloses_itself_only : ∀ r ∈ tablePort, ∀ r' ∈ tablePort,
    r.encloses r' = true → r' = r := by decide

/-- The mapped addresses as bounds (20_memory.md R62). -/
theorem mapped_iff_bounds (a : Addr) : mapped a = true ↔
    (0x8000 ≤ a.toNat ∧ a.toNat < 0xA000) ∨ (0xFE00 ≤ a.toNat ∧ a.toNat < 0xFEA0) ∨
    (0xFF40 ≤ a.toNat ∧ a.toNat ≤ 0xFF4B ∧ a.toNat ≠ 0xFF46) := by
  simp [mapped, Config.vramBase, Config.vramSize, Config.oamBase, Config.oamSize]
  omega

/-- A command word that a row of a memory region or of a register matches is a bus access of a mapped
address. -/
theorem mapped_of_busRow {cw : CommandWord} {r : TableRow} (hr : r ∈ tableRegions ++ tableRegisters)
    (h : r.matches cw = true) : (opField cw).toNat < 2 ∧ mapped (addrField cw) = true := by
  have hvalue : cw.toNat / 2 ^ r.lo = r.value := of_decide_eq_true h
  rw [opField_toNat, mapped_iff_bounds, addrField_toNat]
  generalize cw.toNat = n at hvalue
  fin_cases hr <;> norm_num at hvalue <;> omega

/-! ### The selected row -/

/-- The row is the one of the table with the most fixed bits among those that match. -/
structure TableRow.Selected (cw : CommandWord) (r : TableRow) : Prop where
  mem : r ∈ opcodeTable
  matched : r.matches cw = true
  mostFixed : ∀ r' ∈ opcodeTable, r'.matches cw = true → r' = r ∨ r.lo < r'.lo

theorem selected_of_busRow {cw : CommandWord} {r : TableRow} (hr : r ∈ tableRegions ++ tableRegisters)
    (h : r.matches cw = true) : r.Selected cw := by
  refine ⟨List.mem_append_left _ hr, h, fun r' hr' h' => ?_⟩
  rcases Nat.lt_or_ge r.lo r'.lo with hlo | hlo
  · exact .inr hlo
  · exact .inl (busRow_encloses_itself_only r hr r' hr' (encloses_of_matches h h' hlo))

/-- A row that fixes the command code only is selected where the word is no bus access of a mapped
address. -/
theorem selected_of_portRow {cw : CommandWord} {r : TableRow} (hr : r ∈ tablePort)
    (h : r.matches cw = true) (hport : (opField cw).toNat < 2 → mapped (addrField cw) = false) :
    r.Selected cw := by
  refine ⟨List.mem_append_right _ hr, h, fun r' hr' h' => ?_⟩
  rcases Nat.lt_or_ge r.lo r'.lo with hlo | hlo
  · exact .inr hlo
  · rcases List.mem_append.1 hr' with hbus | hport'
    · obtain ⟨hop, hmapped⟩ := mapped_of_busRow hbus h'
      exact absurd hmapped (Bool.eq_false_iff.1 (hport hop))
    · exact .inl (portRow_encloses_itself_only r hr r' hport' (encloses_of_matches h h' hlo))

/-! ### The row of each transaction -/

/-- A command word as a number, from its two fields (30_encoding.md R81). -/
theorem toNat_eq_fields (cw : CommandWord) :
    cw.toNat = 65536 * (opField cw).toNat + (addrField cw).toNat := by
  rw [← commandWord_toNat, commandWord_fields]

/-- A row matches a command word by the bits of its two fields that it fixes. -/
theorem matches_iff (r : TableRow) (cw : CommandWord) : r.matches cw = true ↔
    (65536 * (opField cw).toNat + (addrField cw).toNat) / 2 ^ r.lo = r.value := by
  rw [← toNat_eq_fields, TableRow.matches, decide_eq_true_iff]

/-! Each kind of row, for RD and WR at once: `op` is the command code and `name` the mnemonic. -/

section
variable {cw : CommandWord} {op : Nat} (name : String) (hop : (opField cw).toNat = op)
include hop

theorem vramRow_selected (o : BitVec 13) (ha : addrField cw = vramAddress o)
    (hr : ⟨name, 13, 8 * op + 4⟩ ∈ tableRegions) : TableRow.Selected cw ⟨name, 13, 8 * op + 4⟩ := by
  have ho := o.isLt
  refine selected_of_busRow (List.mem_append_left _ hr) ((matches_iff _ cw).2 ?_)
  rw [hop, ha, vramAddress_toNat]
  norm_num
  omega

/-- OAM has two rows, below and from offset 0x80 on. -/
theorem oamRow_selected (o : Byte) (ho : o.toNat < 160) (ha : addrField cw = oamAddress o)
    (hlow : ⟨name, 7, 512 * op + 508⟩ ∈ tableRegions)
    (hhigh : ⟨name, 5, 2048 * op + 2036⟩ ∈ tableRegions) :
    ∃ r : TableRow, r.Selected cw ∧ r.mnemonic = name := by
  by_cases hhalf : o.toNat < 0x80
  · refine ⟨_, selected_of_busRow (List.mem_append_left _ hlow) ((matches_iff _ cw).2 ?_), rfl⟩
    rw [hop, ha, oamAddress_toNat]
    norm_num
    omega
  · refine ⟨_, selected_of_busRow (List.mem_append_left _ hhigh) ((matches_iff _ cw).2 ?_), rfl⟩
    rw [hop, ha, oamAddress_toNat]
    norm_num
    omega

theorem registerRow_selected (q : BusReg) (ha : addrField cw = q.address)
    (hr : ⟨name, 0, 65536 * op + q.address.toNat⟩ ∈ tableRegisters) :
    TableRow.Selected cw ⟨name, 0, 65536 * op + q.address.toNat⟩ := by
  refine selected_of_busRow (List.mem_append_right _ hr) ((matches_iff _ cw).2 ?_)
  rw [hop, ha, Nat.pow_zero, Nat.div_one]

/-- A row that fixes the command code only. -/
theorem codeRow_selected (hr : ⟨name, 16, op⟩ ∈ tablePort)
    (hport : 2 ≤ op ∨ mapped (addrField cw) = false) : TableRow.Selected cw ⟨name, 16, op⟩ := by
  have ha := (addrField cw).isLt
  refine selected_of_portRow hr ((matches_iff _ cw).2 ?_) fun hlt => hport.resolve_left (by omega)
  rw [hop]
  norm_num
  omega

end

theorem registerRow_read (q : BusReg) :
    ⟨(decodeReadRegister q).mnemonic, 0, 65536 * 0 + q.address.toNat⟩ ∈ tableRegisters := by
  cases q <;> decide

theorem registerRow_write (d : Byte) (q : BusReg) :
    ⟨(decodeWriteRegister d q).mnemonic, 0, 65536 * 1 + q.address.toNat⟩ ∈ tableRegisters := by
  have hname : (decodeWriteRegister d q).mnemonic = (decodeWriteRegister 0 q).mnemonic := by
    cases q <;> rfl
  rw [hname]
  cases q <;> decide

theorem decodeRead_row (cw : CommandWord) (hop : (opField cw).toNat = 0) :
    ∃ r : TableRow, r.Selected cw ∧ r.mnemonic = (decodeRead (addrField cw)).mnemonic := by
  rcases address_cases (addrField cw) with ⟨o, ha⟩ | ⟨o, ho, ha⟩ | ⟨q, ha⟩ | hunmapped
  · rw [ha, decodeRead_vramAddress]
    exact ⟨_, vramRow_selected "RD_VRAM" hop o ha (by decide), rfl⟩
  · rw [ha, decodeRead_oamAddress o ho]
    exact oamRow_selected "RD_OAM" hop o ho ha (by decide) (by decide)
  · rw [ha, decodeRead_address]
    exact ⟨_, registerRow_selected _ hop q ha (registerRow_read q), rfl⟩
  · rw [decodeRead_of_unmapped _ hunmapped]
    exact ⟨_, codeRow_selected "RD_UNMAPPED" hop (by decide) (.inr hunmapped), rfl⟩

theorem decodeWrite_row (cw : CommandWord) (d : Byte) (hop : (opField cw).toNat = 1) :
    ∃ r : TableRow, r.Selected cw ∧ r.mnemonic = (decodeWrite (addrField cw) d).mnemonic := by
  rcases address_cases (addrField cw) with ⟨o, ha⟩ | ⟨o, ho, ha⟩ | ⟨q, ha⟩ | hunmapped
  · rw [ha, decodeWrite_vramAddress]
    exact ⟨_, vramRow_selected "WR_VRAM" hop o ha (by decide), rfl⟩
  · rw [ha, decodeWrite_oamAddress o d ho]
    exact oamRow_selected "WR_OAM" hop o ho ha (by decide) (by decide)
  · rw [ha, decodeWrite_address]
    exact ⟨_, registerRow_selected _ hop q ha (registerRow_write d q), rfl⟩
  · rw [decodeWrite_of_unmapped _ d hunmapped]
    exact ⟨_, codeRow_selected "WR_UNMAPPED" hop (by decide) (.inr hunmapped), rfl⟩

/-- The reserved codes share one row, which leaves bit 16 free. -/
theorem reservedRow_selected (cw : CommandWord) (hop : opField cw = 6 ∨ opField cw = 7) :
    TableRow.Selected cw ⟨"RESERVED", 17, 3⟩ := by
  have ha := (addrField cw).isLt
  have hcode : (opField cw).toNat = 6 ∨ (opField cw).toNat = 7 :=
    hop.imp (congrArg BitVec.toNat) (congrArg BitVec.toNat)
  refine selected_of_portRow (by decide) ((matches_iff _ cw).2 ?_) fun hlt => by omega
  norm_num
  omega

theorem decode_row (t : Transaction) :
    ∃ r : TableRow, r.Selected t.cw ∧ r.mnemonic = (decode t).mnemonic := by
  rcases opField_cases t.cw with h | h | h | h | h | h | h
  · rw [decode_of_opField_zero h]
    exact decodeRead_row t.cw (by rw [h]; rfl)
  · rw [decode_of_opField_one h]
    exact decodeWrite_row t.cw t.data (by rw [h]; rfl)
  · rw [decode_of_opField_two h]
    exact ⟨_, codeRow_selected "ADV" (show (opField t.cw).toNat = 2 by rw [h]; rfl) (by decide)
      (.inl (by decide)), rfl⟩
  · rw [decode_of_opField_three h]
    exact ⟨_, codeRow_selected "POLL" (show (opField t.cw).toNat = 3 by rw [h]; rfl) (by decide)
      (.inl (by decide)), rfl⟩
  · rw [decode_of_opField_four h]
    exact ⟨_, codeRow_selected "TAKEEV" (show (opField t.cw).toNat = 4 by rw [h]; rfl) (by decide)
      (.inl (by decide)), rfl⟩
  · rw [decode_of_opField_five h]
    exact ⟨_, codeRow_selected "RESET" (show (opField t.cw).toNat = 5 by rw [h]; rfl) (by decide)
      (.inl (by decide)), rfl⟩
  · rw [Machine.decode_of_opField_reserved t h]
    exact ⟨_, reservedRow_selected t.cw h, rfl⟩

/-- Settles O3: the row of each decoded transaction is the selected one. -/
theorem decodeSelectsMostSpecificRow : Obligations.DecodeSelectsMostSpecificRow := by
  intro t
  obtain ⟨r, hselected, hname⟩ := decode_row t
  exact ⟨r, hselected.mem, hselected.matched, hname, hselected.mostFixed⟩

/-! ### Words -/

theorem decode_readWord {w : CommandWord} (a : Addr) (hw : w = commandWord 0 a) (d : Byte) (n : Nat) :
    decode ⟨w, d, n⟩ = decodeRead a := by
  simp [decode, hw]

theorem decode_writeWord {w : CommandWord} (a : Addr) (hw : w = commandWord 1 a) (d : Byte) (n : Nat) :
    decode ⟨w, d, n⟩ = decodeWrite a d := by
  simp [decode, hw]

/-- Settles O4: each word is a command code with an address of the tabled target. -/
theorem specCommandWordsDecode : Obligations.SpecCommandWordsDecode := by
  intro d n
  refine ⟨?_, ?_, ?_, ?_, ?_, ?_, ?_, ?_, ?_, ?_, ?_, ?_, ?_, ?_, ?_, ?_⟩
  · rw [decode_readWord (vramAddress 0x1FFF) (by decide), decodeRead_vramAddress]
  · rw [decode_readWord 0xA000 (by decide), decodeRead_of_unmapped _ (by decide)]
  · rw [decode_writeWord (vramAddress 0x1800) (by decide), decodeWrite_vramAddress]
  · rw [decode_readWord (oamAddress 0x7F) (by decide), decodeRead_oamAddress _ (by decide)]
  · rw [decode_readWord (oamAddress 0x80) (by decide), decodeRead_oamAddress _ (by decide)]
  · rw [decode_writeWord (oamAddress 0x9F) (by decide), decodeWrite_oamAddress _ _ (by decide)]
  · rw [decode_readWord 0xFEA0 (by decide), decodeRead_of_unmapped _ (by decide)]
  · rw [decode_writeWord BusReg.stat.address (by decide), decodeWrite_address]; rfl
  · rw [decode_readWord BusReg.ly.address (by decide), decodeRead_address]; rfl
  · rw [decode_writeWord BusReg.ly.address (by decide), decodeWrite_address]; rfl
  · rw [decode_writeWord 0xFF46 (by decide), decodeWrite_of_unmapped _ _ (by decide)]
  · exact decode_of_opField_two (show opField 0x2ABCD = 2 by decide)
  · exact decode_of_opField_three (show opField 0x3FFFF = 3 by decide)
  · exact decode_of_opField_four (show opField 0x40000 = 4 by decide)
  · exact decode_of_opField_five (show opField 0x50000 = 5 by decide)
  · have hop : opField (Transaction.mk 0x7FFFF d n).cw = 7 := show opField 0x7FFFF = 7 by decide
    rw [Machine.decode_of_opField_reserved _ (.inr hop), hop]

/-- Settles O7: the expansions are the commands' own transactions, and a bus word is its command code
in front of its address. -/
theorem pseudoCommandsExpandAsTabled : Obligations.PseudoCommandsExpandAsTabled := by
  have hread (a : Addr) : (commandWord 0 a).toNat = a.toNat := by
    rw [commandWord_toNat]
    exact Nat.zero_add _
  have hwrite (a : Addr) : (commandWord 1 a).toNat = 0x10000 + a.toNat := commandWord_toNat 1 a
  have hadv : commandWord 2 0 = 0x20000 := by decide
  exact ⟨rfl, rfl, rfl, fun _ _ => ⟨rfl, rfl⟩, fun a _ => ⟨hread a, hwrite a, rfl⟩,
    fun _ => ⟨hadv, rfl⟩, by decide, by decide, by decide⟩

end Sys2Proof
end
